-- ==== Sys2Proof/Word.lean ====
section
/-!
DEFINITION. The host data word (R5, R9, R54): `W` = 32 bits, the two's-complement pattern of one
integer of `int_W`. `BitVec.toInt` is the spec's `sext_W` and `BitVec.ofInt 32` its `bits_W`, so a
register that holds a `Word` holds exactly one element of `int_W`.
-/
namespace Sys2Proof

/-- One `W`-bit word, `W` = 32 (R5): an integer register, a vector element, a host data word. -/
abbrev Word := BitVec 32

/-- `bits_W(v)` (R9): the 32-bit pattern of `v mod 2^32`. -/
abbrev bitsW (v : Int) : Word := BitVec.ofInt 32 v

/-- `sext_W(b)` (R9): the signed integer a word stands for. -/
abbrev sextW (b : Word) : Int := b.toInt

end Sys2Proof
end

