-- ==== Sys2Proof/Syntax.lean ====
section
/-!
DEFINITION. The commands (R73, R163): twelve constructors, one per row of the opcode table, `VPERM`
alone carrying an operand, the table selector of seven values (R74).
-/
namespace Sys2Proof

/-- The legal values of `TSEL` (R74), in the order 0 to 6; 7 to 15 are illegal and have no name. -/
inductive TableSel where
  | vb
  | p10
  | p8
  | ip
  | ipinv
  | ep
  | p4
deriving DecidableEq, Repr

/-- The command set (R73); R163: "A model's command type has exactly these twelve constructors". -/
inductive Instr where
  | nop
  | mod
  | modexp
  | eea
  | modinv
  | vperm (t : TableSel)
  | vrotl
  | vxor
  | visbit
  | sdkey
  | sdenc
  | sddec
deriving DecidableEq, Repr

end Sys2Proof
end

