-- ==== Sys2Proof/Config.lean ====
section
/-!
DEFINITION. What an implementation fixes (R5, R33): the vector capacity, the S-DES sizes, and the
shape of the record `TABLES`. The values of the tables of this hardware stand in
Sys2Proof/Machine/Tables.lean. `W` is fixed by the type `Word`; `BUS` and `BASE` are open and no rule
depends on them (log 10). The spec leaves no value of an instruction undefined, so there is no free
value here.
-/
namespace Sys2Proof.Config

/-- `VMAX` (R5): the greatest number of elements a vector register holds. -/
abbrev vmax : Nat := 16

/-- `KEYLEN` (R5): elements of an S-DES raw key. -/
abbrev keyLen : Nat := 10

/-- `BLKLEN` (R5): elements of an S-DES block. -/
abbrev blkLen : Nat := 8

/-- `SUBKEYLEN` (R5): elements of `K1` and of `K2`. -/
abbrev subkeyLen : Nat := 8

/-- `TABLES` (R33): six permutation tables of 1-based positions and two 4 by 4 substitution tables
of values 0 to 3, rows first. -/
structure Tables where
  p10 : List Nat
  p8 : List Nat
  ip : List Nat
  ipinv : List Nat
  ep : List Nat
  p4 : List Nat
  s0 : List (List Nat)
  s1 : List (List Nat)
deriving DecidableEq, Repr

end Sys2Proof.Config
end

