-- ==== Sys2Proof/WellFormed.lean ====
section
/-!
DEFINITION. Well-formedness of commands and of a `TABLES` value. A command has no operand field that
could be ill-formed: the selector of `VPERM` is a type of the seven legal values (R74, R163), so every
term of `Instr` is well-formed; what can be ill-formed is a configuration (R33).
-/
namespace Sys2Proof

/-- Every command term is well-formed (R71, R163); one case per constructor, so that a new command
cannot slip past. -/
def Instr.wellFormed : Instr → Bool
  | .nop => true
  | .mod => true
  | .modexp => true
  | .eea => true
  | .modinv => true
  | .vperm _ => true
  | .vrotl => true
  | .vxor => true
  | .visbit => true
  | .sdkey => true
  | .sdenc => true
  | .sddec => true

namespace Config

/-- R33(a) for one permutation table: `k` entries, each a position 1 to `n` of the input. -/
def permTableOk (t : List Nat) (k n : Nat) : Bool :=
  t.length == k && t.all fun e => decide (1 ≤ e) && decide (e ≤ n)

/-- R33(a) for one substitution table: 4 rows of 4 columns, each entry 0 to 3. -/
def subTableOk (t : List (List Nat)) : Bool :=
  t.length == 4 && t.all fun row => row.length == 4 && row.all fun e => decide (e ≤ 3)

/-- R33(b): `IP[IPINV[k]-1] = k+1` for every position `k` in 0 to 7 (C7). -/
def inverseOk (ip ipinv : List Nat) : Bool :=
  (List.range 8).all fun k => ip.getD (ipinv.getD k 0 - 1) 0 == k + 1

/-- Well-formedness of a `TABLES` value: R33 (a) and (b). -/
def Tables.wellFormed (T : Tables) : Bool :=
  permTableOk T.p10 10 10 && permTableOk T.p8 8 10 && permTableOk T.ip 8 8 &&
  permTableOk T.ipinv 8 8 && permTableOk T.ep 8 4 && permTableOk T.p4 4 4 &&
  subTableOk T.s0 && subTableOk T.s1 && inverseOk T.ip T.ipinv

end Config
end Sys2Proof
end

