-- ==== Sys2Proof/Decode.lean ====
section
/-!
DEFINITION. The decoder of command words (R70, R72 to R75), total on every word and rejecting by name,
and the encoder written from the same map. One command is one word (R77); there are no bytes (R55).
-/
namespace Sys2Proof

/-- Why a command word is illegal (R75). -/
inductive Illegal where
  /-- `RSV != 0`. -/
  | reservedBits
  /-- `TSEL` not 0 on a command other than `VPERM`, or `TSEL >= 7` on `VPERM`. -/
  | tableSelect
  /-- `OP` is none of the twelve values of R73. -/
  | opcode
deriving DecidableEq, Repr

/-- `OP`, bits 7:0 (R70). -/
def fieldOp (c : Word) : BitVec 8 := c.extractLsb' 0 8

/-- `TSEL`, bits 11:8 (R70). -/
def fieldTsel (c : Word) : BitVec 4 := c.extractLsb' 8 4

/-- `RSV`, bits 31:12 (R70). -/
def fieldRsv (c : Word) : BitVec 20 := c.extractLsb' 12 20

/-- `TSEL` values (R74); 7 to 15 select nothing. -/
def tableSelOf (t : BitVec 4) : Option TableSel :=
  match t with
  | 0#4 => some .vb
  | 1#4 => some .p10
  | 2#4 => some .p8
  | 3#4 => some .ip
  | 4#4 => some .ipinv
  | 5#4 => some .ep
  | 6#4 => some .p4
  | _ => none

/-- The commands of R73 without an operand, by opcode. -/
def plainCommandOf (op : BitVec 8) : Option Instr :=
  match op with
  | 0x00#8 => some .nop
  | 0x10#8 => some .mod
  | 0x11#8 => some .modexp
  | 0x12#8 => some .eea
  | 0x13#8 => some .modinv
  | 0x21#8 => some .vrotl
  | 0x22#8 => some .vxor
  | 0x23#8 => some .visbit
  | 0x30#8 => some .sdkey
  | 0x31#8 => some .sdenc
  | 0x32#8 => some .sddec
  | _ => none

/-- R72, in its order: reserved bits, `VPERM` with its selector, any other opcode with `TSEL` 0. -/
def decode (c : Word) : Except Illegal Instr :=
  if fieldRsv c ≠ 0#20 then .error .reservedBits
  else if fieldOp c = 0x20#8 then
    match tableSelOf (fieldTsel c) with
    | some t => .ok (.vperm t)
    | none => .error .tableSelect
  else if fieldTsel c ≠ 0#4 then .error .tableSelect
  else
    match plainCommandOf (fieldOp c) with
    | some i => .ok i
    | none => .error .opcode

/-- The `TSEL` value of a selector (R74). -/
def tselBits : TableSel → BitVec 4
  | .vb => 0#4
  | .p10 => 1#4
  | .p8 => 2#4
  | .ip => 3#4
  | .ipinv => 4#4
  | .ep => 5#4
  | .p4 => 6#4

/-- The `OP` value of a command (R73). -/
def opBits : Instr → BitVec 8
  | .nop => 0x00#8
  | .mod => 0x10#8
  | .modexp => 0x11#8
  | .eea => 0x12#8
  | .modinv => 0x13#8
  | .vperm _ => 0x20#8
  | .vrotl => 0x21#8
  | .vxor => 0x22#8
  | .visbit => 0x23#8
  | .sdkey => 0x30#8
  | .sdenc => 0x31#8
  | .sddec => 0x32#8

/-- The `TSEL` field of a command: the selector of `VPERM`, 0 for every other (R70). -/
def instrTsel : Instr → BitVec 4
  | .vperm t => tselBits t
  | .nop => 0#4
  | .mod => 0#4
  | .modexp => 0#4
  | .eea => 0#4
  | .modinv => 0#4
  | .vrotl => 0#4
  | .vxor => 0#4
  | .visbit => 0#4
  | .sdkey => 0#4
  | .sdenc => 0#4
  | .sddec => 0#4

/-- The command word of a command (R70): `RSV` = 0, then `TSEL`, then `OP`. -/
def encode (i : Instr) : Word := 0#20 ++ instrTsel i ++ opBits i

/-- The command word made of the low `nbits` bits of `w`: the table numbers bits as R70 does, and a
command is exactly one 32-bit word (R77). -/
def commandWord (nbits w : Nat) : Word := BitVec.ofNat 32 (w % 2 ^ nbits)

/-- What the decoder reads from the table's bits `w`; none where it refuses. -/
def decodeTableWord (nbits w : Nat) : Option Instr :=
  match decode (commandWord nbits w) with
  | .ok i => some i
  | .error _ => none

end Sys2Proof
end

