-- ==== Sys2Proof/Machine/State.lean ====
section
/-!
DEFINITION. The state of the core (R20) as plain data, the host's side of it (the transactions it will
issue next and the answers it has had: R6, R14, R60), the reasons a step can stop, and the state after
reset (R35).
-/
namespace Sys2Proof.Machine

/-- What an address names (R50), with the element index of a vector register. -/
inductive Port where
  | cmd
  | status
  | opa
  | opb
  | opc
  | res0
  | res1
  | res2
  | k1
  | k2
  | vaLen
  | vbLen
  | vrLen
  | va (i : Fin 16)
  | vb (i : Fin 16)
  | vr (i : Fin 16)
deriving DecidableEq, Repr

/-- What the host can do to the core: its two transactions (R51, R52) and reset (R190). -/
inductive HostEvent where
  | read (addr : Nat)
  | write (addr : Nat) (data : Word)
  | reset
deriving DecidableEq, Repr

/-- The answer to a transaction that is not refused (R14): `ok` to a write, `ok(data)` to a read. -/
inductive Response where
  | written
  | data (w : Word)
deriving DecidableEq, Repr

/-- The machine. The first fourteen fields are the state of R20 and nothing else; `pending` and
`responses` are the model's own: the host's next transactions, first first (log 1), and the answers so
far, oldest first (log 2). -/
structure State where
  /-- `OPA` (R21). -/
  opa : Word
  /-- `OPB` (R21). -/
  opb : Word
  /-- `OPC` (R21). -/
  opc : Word
  /-- `RES0` (R22). -/
  res0 : Word
  /-- `RES1` (R22). -/
  res1 : Word
  /-- `RES2` (R22). -/
  res2 : Word
  /-- `VA`, element 0 first; its length is `VA_LEN` (R29, R30). -/
  va : List Word
  /-- `VB` (R29, R30). -/
  vb : List Word
  /-- `VR` (R29, R30). -/
  vr : List Word
  /-- `K1`: eight bits, element 0 the most significant (R31, R12). -/
  k1 : BitVec 8
  /-- `K2` (R31). -/
  k2 : BitVec 8
  /-- `STATUS.ERR` (R25). -/
  err : BitVec 4
  /-- `STATUS.KEYVALID` (R26). -/
  keyValid : Bool
  /-- `STATUS.ESTICKY` (R27). -/
  esticky : Bool
  /-- MODEL'S OWN: the transactions the host has yet to issue (log 1). -/
  pending : List HostEvent
  /-- MODEL'S OWN: the answers the host has received (log 2). -/
  responses : List Response
deriving DecidableEq, Repr

/-- Faults: none. No rule of the spec stops the machine: a failing command raises, which is a next
state (R171, R179, R180), and every command terminates (R195). -/
inductive Fault where
deriving DecidableEq, Repr

/-- Why a step has no next state. All but the first are the refused transactions of R53, which says a
model should treat one as the script going wrong and not as a no-op. Each is safe: the run stops where
the hardware answers `refused` and goes on with its state unchanged. -/
inductive Refusal where
  /-- An instruction without a meaning: raised by no arm of this model. Safe. -/
  | notModelled (mnemonic : String)
  /-- Raised by a read or write of an address outside the map of R50. Safe. -/
  | unmappedAddress (addr : Nat)
  /-- Raised by a read of `CMD`, which is write only (R28). Safe. -/
  | readOfCmd
  /-- Raised by a write to `STATUS`, `RES0..2`, `K1`, `K2`, `VR_LEN` or an element of `VR`. Safe. -/
  | writeToReadOnly (addr : Nat)
  /-- Raised by a read or write of an element at or beyond the register's length (R30). Safe. -/
  | elementBeyondLength (addr : Nat)
  /-- Raised by a write to `VA_LEN` or `VB_LEN` of a value below 0 or above `VMAX` (R30). Safe. -/
  | lengthOutOfRange (data : Word)
deriving DecidableEq, Repr

/-- The state after reset: R35, and a host that has nothing pending and has heard nothing (log 6). -/
def State.reset : State where
  opa := 0
  opb := 0
  opc := 0
  res0 := 0
  res1 := 0
  res2 := 0
  va := []
  vb := []
  vr := []
  k1 := 0
  k2 := 0
  err := 0
  keyValid := false
  esticky := false
  pending := []
  responses := []

end Sys2Proof.Machine
end

