-- ==== Sys2Proof/Machine/Flags.lean ====
section
/-!
DEFINITION. The status register: the error codes (R170) and the word a host read returns (R24).
-/
namespace Sys2Proof.Machine

/-- The errors a command can raise (R170); code 0, `OK`, is no error. -/
inductive ErrorCode where
  | invalidArgument
  | domain
  | bounds
  | noKey
  | illegalCommand
deriving DecidableEq, Repr

/-- The code an error leaves in `STATUS.ERR` (R170). -/
def errorBits : ErrorCode → BitVec 4
  | .invalidArgument => 1#4
  | .domain => 2#4
  | .bounds => 3#4
  | .noKey => 4#4
  | .illegalCommand => 5#4

/-- `STATUS` as read: `ERR + 16*KEYVALID + 32*ESTICKY` (R24); bits 31:6 read as 0. -/
def statusWord (s : State) : Word :=
  BitVec.ofNat 32 (s.err.toNat + 16 * s.keyValid.toNat + 32 * s.esticky.toNat)

end Sys2Proof.Machine
end

