-- ==== Sys2Proof/Machine/Ops.lean ====
section
/-!
DEFINITION. The named operations on the registers, the two ends of a command (R82): `succeed`, and
`raise`, which is all that "trap entry" is here (R171, R179; its "return" is the next command, R180);
the register map (R50) and the host's read transaction (R51).
-/
namespace Sys2Proof.Machine

/-- `RES0 <- v`. -/
def setRes0 (v : Word) (s : State) : State := { s with res0 := v }

/-- `RES0 <- g; RES1 <- x; RES2 <- y` (R95). -/
def setResults (g x y : Word) (s : State) : State := { s with res0 := g, res1 := x, res2 := y }

/-- `VR <- xs`, the whole sequence replaced (R29). -/
def setVr (xs : List Word) (s : State) : State := { s with vr := xs }

/-- `K1 <- a; K2 <- b; STATUS.KEYVALID <- 1` (R132). -/
def setKeys (a b : BitVec 8) (s : State) : State := { s with k1 := a, k2 := b, keyValid := true }

/-- `STATUS.ERR <- 0`; `ESTICKY` as it was (R82). -/
def clearErr (s : State) : State := { s with err := 0#4 }

/-- What raising `e` writes (R171): `ERR` and `ESTICKY`, nothing else. -/
def markError (e : ErrorCode) (s : State) : State := { s with err := errorBits e, esticky := true }

/-- Host write to `OPA`. -/
def setOpa (v : Word) (s : State) : State := { s with opa := v }

/-- Host write to `OPB`. -/
def setOpb (v : Word) (s : State) : State := { s with opb := v }

/-- Host write to `OPC`. -/
def setOpc (v : Word) (s : State) : State := { s with opc := v }

/-- Host write to `VA`, to its length or to an element. -/
def setVa (xs : List Word) (s : State) : State := { s with va := xs }

/-- Host write to `VB`, to its length or to an element. -/
def setVb (xs : List Word) (s : State) : State := { s with vb := xs }

/-- The host's transactions still to come. -/
def setPending (es : List HostEvent) (s : State) : State := { s with pending := es }

/-- One more answer received by the host (R14). -/
def respond (r : Response) (s : State) : State := { s with responses := s.responses ++ [r] }

/-- Reset (R190): every piece of the core's state takes its R35 value; what the host will do and has
heard is not the core's (log 6). -/
def resetCore (s : State) : State :=
  { State.reset with pending := s.pending, responses := s.responses }

/-- The end of a command that succeeds: its destinations written by `commit`, and `ERR <- 0` (R82). -/
def succeed (commit : State → State) (s : State) : Host.Outcome State Fault Refusal :=
  .next (clearErr (commit s))

/-- `raise E` (R171): the command ends, with `ERR` and `ESTICKY` written and nothing else. -/
def raise (e : ErrorCode) (s : State) : Host.Outcome State Fault Refusal :=
  .next (markError e s)

/-- `v` is in `int_W` (R9). -/
def fitsWord (v : Int) : Bool := decide (-2147483648 ≤ v) && decide (v ≤ 2147483647)

/-- `resize(s, n)` (R52): truncate to `n` elements, or grow to `n` with zeros. -/
def resize (s : List Word) (n : Nat) : List Word :=
  if n ≤ s.length then s.take n else s ++ List.replicate (n - s.length) 0#32

/-- The part of the register map below the vector elements (R50). -/
def scalarPortOf (addr : Nat) : Option Port :=
  match addr with
  | 0x00 => some .cmd
  | 0x01 => some .status
  | 0x02 => some .opa
  | 0x03 => some .opb
  | 0x04 => some .opc
  | 0x05 => some .res0
  | 0x06 => some .res1
  | 0x07 => some .res2
  | 0x08 => some .k1
  | 0x09 => some .k2
  | 0x10 => some .vaLen
  | 0x11 => some .vbLen
  | 0x12 => some .vrLen
  | _ => none

/-- The register map (R50): what an address names; none where it is unmapped. -/
def portOf (addr : Nat) : Option Port :=
  if addr < 0x20 then scalarPortOf addr
  else if h : addr < 0x30 then some (.va ⟨addr - 0x20, by omega⟩)
  else if h : addr < 0x40 then some (.vb ⟨addr - 0x30, by omega⟩)
  else if h : addr < 0x50 then some (.vr ⟨addr - 0x40, by omega⟩)
  else none

/-- The address of a named register (R50). -/
def addressOf : Port → Nat
  | .cmd => 0x00
  | .status => 0x01
  | .opa => 0x02
  | .opb => 0x03
  | .opc => 0x04
  | .res0 => 0x05
  | .res1 => 0x06
  | .res2 => 0x07
  | .k1 => 0x08
  | .k2 => 0x09
  | .vaLen => 0x10
  | .vbLen => 0x11
  | .vrLen => 0x12
  | .va i => 0x20 + i
  | .vb i => 0x30 + i
  | .vr i => 0x40 + i

/-- Element `i` of a vector register as the host reads it: refused at or beyond the length (R51). -/
def readElement (addr : Nat) (xs : List Word) (i : Nat) : Except Refusal Word :=
  match xs[i]? with
  | some w => .ok w
  | none => .error (.elementBeyondLength addr)

/-- `HostRead(addr)` (R51): the word, or the refusal of R53. It changes no state. -/
def hostRead (addr : Nat) (s : State) : Except Refusal Word :=
  match portOf addr with
  | none => .error (.unmappedAddress addr)
  | some .cmd => .error .readOfCmd
  | some .status => .ok (statusWord s)
  | some .opa => .ok s.opa
  | some .opb => .ok s.opb
  | some .opc => .ok s.opc
  | some .res0 => .ok s.res0
  | some .res1 => .ok s.res1
  | some .res2 => .ok s.res2
  | some .k1 => .ok (s.k1.setWidth 32)
  | some .k2 => .ok (s.k2.setWidth 32)
  | some .vaLen => .ok (bitsW s.va.length)
  | some .vbLen => .ok (bitsW s.vb.length)
  | some .vrLen => .ok (bitsW s.vr.length)
  | some (.va i) => readElement addr s.va i
  | some (.vb i) => readElement addr s.vb i
  | some (.vr i) => readElement addr s.vr i

/-- A host write to a length register (R52): the resized sequence, or the refusal of R53. -/
def writtenLength (xs : List Word) (d : Word) : Except Refusal (List Word) :=
  if 0 ≤ d.toInt ∧ d.toInt ≤ Config.vmax then .ok (resize xs d.toInt.toNat)
  else .error (.lengthOutOfRange d)

/-- A host write to element `i` (R52): the new sequence, or the refusal of R53. -/
def writtenElement (addr : Nat) (xs : List Word) (i : Nat) (d : Word) :
    Except Refusal (List Word) :=
  if i < xs.length then .ok (xs.set i d) else .error (.elementBeyondLength addr)

/-- The outcome of a write whose new value may have been refused. -/
def writeIfAdmitted (new : Except Refusal (List Word)) (store : List Word → State → State)
    (s : State) : Host.Outcome State Fault Refusal :=
  match new with
  | .ok xs => .next (store xs s)
  | .error r => .refused r

end Sys2Proof.Machine
end

