-- ==== Sys2Proof/Machine/Tables.lean ====
section
/-!
DEFINITION. The value of `TABLES` for this hardware (R34). The spec marks it "from general knowledge,
not in source": PRESUMED, log 4.
-/
namespace Sys2Proof.Machine

/-- The default `TABLES` (R34). -/
def defaultTables : Config.Tables where
  p10 := [3, 5, 2, 7, 4, 10, 1, 9, 8, 6]
  p8 := [6, 3, 7, 4, 8, 5, 10, 9]
  ip := [2, 6, 3, 1, 4, 8, 5, 7]
  ipinv := [4, 1, 3, 5, 7, 2, 8, 6]
  ep := [4, 1, 2, 3, 2, 3, 4, 1]
  p4 := [2, 4, 3, 1]
  s0 := [[1, 0, 3, 2], [3, 2, 1, 0], [0, 2, 1, 3], [3, 1, 3, 2]]
  s1 := [[0, 1, 2, 3], [2, 0, 1, 3], [3, 0, 1, 0], [2, 1, 0, 3]]

end Sys2Proof.Machine
end

