-- ==== Sys2Proof/Machine/Operands.lean ====
section
/-!
DEFINITION. The operand forms (R78): (a) an integer register as a signed integer is `BitVec.toInt`; (b)
a vector register is its sequence; (c) the table `TSEL` selects; (d) a subkey register as a bit
sequence. With them the packing of bit sequences (R12), slices (R10) and the checks on sequences
(R116, R141).
-/
namespace Sys2Proof.Machine

/-- `s[i..j)` (R10). -/
def slice (s : List Word) (i j : Nat) : List Word := (s.drop i).take (j - i)

/-- `isbits(s)` (R116): every element is the integer 0 or the integer 1. -/
def isBits (s : List Word) : Bool := s.all fun e => e == 0#32 || e == 1#32

/-- `valid_bits(s, n)` (R141): exactly `n` elements, each 0 or 1. -/
def validBits (s : List Word) (n : Nat) : Bool := s.length == n && isBits s

/-- `pack_n(s)` (R12): element 0 is the most significant bit. -/
def pack (s : List Word) : Nat := s.foldl (fun acc e => 2 * acc + e.toNat) 0

/-- `unpack_n(v)` (R12). -/
def unpack (n v : Nat) : List Word :=
  (List.range n).map fun i => BitVec.ofNat 32 (v / 2 ^ (n - 1 - i) % 2)

/-- A subkey register's content from a sequence of eight bits. -/
def packSubkey (s : List Word) : BitVec 8 := BitVec.ofNat 8 (pack s)

/-- Operand form (d): the eight-element bit sequence a subkey register holds (R31). -/
def subkeySeq (k : BitVec 8) : List Word := unpack Config.subkeyLen k.toNat

/-- Operand form (c): the table `VPERM` uses (R74, R111), as integers, since `VB` may hold any. -/
def selectedTable (T : Config.Tables) (t : TableSel) (s : State) : List Int :=
  match t with
  | .vb => s.vb.map BitVec.toInt
  | .p10 => T.p10.map Int.ofNat
  | .p8 => T.p8.map Int.ofNat
  | .ip => T.ip.map Int.ofNat
  | .ipinv => T.ipinv.map Int.ofNat
  | .ep => T.ep.map Int.ofNat
  | .p4 => T.p4.map Int.ofNat

/-- Every entry is a position 1 to `n` (the check of R111). -/
def entriesInRange (t : List Int) (n : Nat) : Bool :=
  t.all fun e => decide (1 ≤ e) && decide (e ≤ n)

end Sys2Proof.Machine
end

