-- ==== Sys2Proof/Machine/BitVector.lean ====
section
/-!
DEFINITION. The bit-vector commands VPERM, VROTL, VXOR, VISBIT (41_bitvector.md) and the functions
`permute`, `rotl`, `vxor`, which the S-DES rules use too (R119).
-/
namespace Sys2Proof.Machine

/-- `permute(s, t)` (R110): `r[i] = s[t[i] - 1]`, for a table whose entries are positions of `s`. Its
value elsewhere is never delivered: `VPERM` checks first, S-DES tables are well-formed (log 7). -/
def permute (s : List Word) (t : List Nat) : List Word := t.map fun p => s.getD (p - 1) 0#32

/-- `rotl(s, d)` for `d >= 0` (R112): element `d mod n` becomes element 0 and the first `d mod n`
elements reappear at the end in their order. -/
def rotl (s : List Word) (d : Nat) : List Word :=
  s.drop (d % s.length) ++ s.take (d % s.length)

/-- `vxor(a, b)` for equal lengths (R114): bitwise exclusive-or of the patterns, index by index. -/
def vxor (a b : List Word) : List Word := List.zipWith (fun x y => x ^^^ y) a b

/-- `VPERM` (R111). -/
def execVperm (t : TableSel) (s : State) : Host.Outcome State Fault Refusal :=
  let table := selectedTable defaultTables t s
  if entriesInRange table s.va.length then
    succeed (setVr (permute s.va (table.map Int.toNat))) s
  else raise .bounds s

/-- `VROTL` (R113). -/
def execVrotl (s : State) : Host.Outcome State Fault Refusal :=
  if s.opa.toInt < 0 then raise .bounds s
  else succeed (setVr (rotl s.va s.opa.toInt.toNat)) s

/-- `VXOR` (R115). -/
def execVxor (s : State) : Host.Outcome State Fault Refusal :=
  if s.va.length ≠ s.vb.length then raise .bounds s
  else succeed (setVr (vxor s.va s.vb)) s

/-- `VISBIT` (R117): a false answer is a result, not an error. -/
def execVisbit (s : State) : Host.Outcome State Fault Refusal :=
  succeed (setRes0 (if isBits s.va then 1#32 else 0#32)) s

end Sys2Proof.Machine
end

