-- ==== Sys2Proof/Machine/Numeric.lean ====
section
/-!
DEFINITION. The numeric commands MOD, MODEXP, EEA, MODINV (40_numeric.md) and the functions they are
defined by, over the mathematical integers (R9, R98).
-/
namespace Sys2Proof.Machine

/-- `modulo(i, j)` for `j >= 1` (R90): the remainder in `[0, j)`. No command applies it to `j < 1`
(log 7). -/
def modulo (i j : Int) : Int := i % j

/-- `b^e mod m` by repeated squaring, at most `fuel` halvings of the exponent. -/
def powModFuel (m : Nat) : Nat → Nat → Nat → Nat
  | 0, _, _ => 1 % m
  | fuel + 1, b, e =>
    if e = 0 then 1 % m
    else
      let h := powModFuel m fuel (b * b % m) (e / 2)
      if e % 2 = 1 then b * h % m else h

/-- `modexp(base, exponent, modulus)` for `exponent >= 0` and `modulus >= 1` (R92): the exact
`modulo(base^exponent, modulus)`. Computed by square-and-multiply, which R99 allows; it is equal to
the power by `modexp_eq_modulo_pow` in Sys2Proof/Laws/Numeric.lean. -/
def modexp (base exponent modulus : Int) : Int :=
  powModFuel modulus.toNat exponent.toNat (modulo base modulus).toNat exponent.toNat

/-- The recursion of R94 on `(b, a mod b)`, at most `fuel` steps deep. -/
def eeaFuel : Nat → Nat → Nat → Nat × Int × Int
  | 0, a, _ => (a, 1, 0)
  | fuel + 1, a, b =>
    if b = 0 then (a, 1, 0)
    else
      let r := eeaFuel fuel b (a % b)
      (r.1, r.2.2, r.2.1 - (a / b : Nat) * r.2.2)

/-- `eea(a, b)` (R94): the triple `(g, x, y)`. The second component falls at every step, so `b + 1`
is fuel enough; `eea_zero` and `eea_step` in Sys2Proof/Laws/Numeric.lean are R94's two equations. -/
def eea (a b : Nat) : Nat × Int × Int := eeaFuel (b + 1) a b

/-- `MOD` (R91). -/
def execMod (s : State) : Host.Outcome State Fault Refusal :=
  if s.opb.toInt < 1 then raise .domain s
  else succeed (setRes0 (bitsW (modulo s.opa.toInt s.opb.toInt))) s

/-- `MODEXP` (R93). -/
def execModexp (s : State) : Host.Outcome State Fault Refusal :=
  if s.opb.toInt < 0 then raise .domain s
  else if s.opc.toInt < 1 then raise .domain s
  else succeed (setRes0 (bitsW (modexp s.opa.toInt s.opb.toInt s.opc.toInt))) s

/-- `EEA` (R95); its second check never fires (R95, R173) and is kept as the rule writes it. -/
def execEea (s : State) : Host.Outcome State Fault Refusal :=
  if s.opa.toInt < 0 ∨ s.opb.toInt < 0 then raise .domain s
  else
    let r := eea s.opa.toInt.toNat s.opb.toInt.toNat
    if fitsWord r.1 && fitsWord r.2.1 && fitsWord r.2.2 then
      succeed (setResults (bitsW r.1) (bitsW r.2.1) (bitsW r.2.2)) s
    else raise .domain s

/-- `MODINV` (R97): the operand reduced first (D30), then the `x` of `eea` reduced (R96). -/
def execModinv (s : State) : Host.Outcome State Fault Refusal :=
  if s.opb.toInt < 1 then raise .domain s
  else
    let r := eea (modulo s.opa.toInt s.opb.toInt).toNat s.opb.toInt.toNat
    if r.1 ≠ 1 then raise .domain s
    else succeed (setRes0 (bitsW (modulo r.2.1 s.opb.toInt))) s

end Sys2Proof.Machine
end

