-- ==== Sys2Proof/Machine/Sdes.lean ====
section
/-!
DEFINITION. The S-DES commands SDKEY, SDENC, SDDEC (42_sdes.md) and the functions they are defined by,
each for an arbitrary `TABLES`; the commands use this hardware's value (R34).
-/
namespace Sys2Proof.Machine

/-- `sdes_keys(k)` (R131): each half is rotated within its own 5 elements. -/
def sdesKeys (T : Config.Tables) (k : List Word) : List Word × List Word :=
  let p := permute k T.p10
  let l1 := rotl (slice p 0 5) 1
  let r1 := rotl (slice p 5 10) 1
  let l3 := rotl l1 2
  let r3 := rotl r1 2
  (permute (l1 ++ r1) T.p8, permute (l3 ++ r3) T.p8)

/-- Bit `i` of a half, as a number. -/
def bitAt (h : List Word) (i : Nat) : Nat := (h.getD i 0#32).toNat

/-- `sbox(S, h)` (R133): row from bits 0 and 3, column from bits 1 and 2, the first listed bit high,
and the entry back to two bits, high bit first. -/
def sbox (S : List (List Nat)) (h : List Word) : List Word :=
  let v := (S.getD (2 * bitAt h 0 + bitAt h 3) []).getD (2 * bitAt h 1 + bitAt h 2) 0
  [BitVec.ofNat 32 (v / 2), BitVec.ofNat 32 (v % 2)]

/-- `sdes_f(R, K)` (R134): the `S0` output comes first. -/
def sdesF (T : Config.Tables) (r k : List Word) : List Word :=
  let t := vxor (permute r T.ep) k
  permute (sbox T.s0 (slice t 0 4) ++ sbox T.s1 (slice t 4 8)) T.p4

/-- `sdes_round(L, R, K)` (R135). -/
def sdesRound (T : Config.Tables) (lr : List Word × List Word) (k : List Word) :
    List Word × List Word :=
  (lr.2, vxor lr.1 (sdesF T lr.2 k))

/-- `sdes_block(b, Ka, Kb)` (R136): two rounds, and `R2 ++ L2` before `IPINV` (C1). -/
def sdesBlock (T : Config.Tables) (b ka kb : List Word) : List Word :=
  let p := permute b T.ip
  let one := sdesRound T (slice p 0 4, slice p 4 8) ka
  let two := sdesRound T one kb
  permute (two.2 ++ two.1) T.ipinv

/-- `SDKEY` (R132). -/
def execSdkey (s : State) : Host.Outcome State Fault Refusal :=
  if validBits s.va Config.keyLen then
    let keys := sdesKeys defaultTables s.va
    succeed (setKeys (packSubkey keys.1) (packSubkey keys.2)) s
  else raise .invalidArgument s

/-- `SDENC` (R139): `NO_KEY` is checked first (R177). -/
def execSdenc (s : State) : Host.Outcome State Fault Refusal :=
  if s.keyValid = false then raise .noKey s
  else if validBits s.va Config.blkLen then
    succeed (setVr (sdesBlock defaultTables s.va (subkeySeq s.k1) (subkeySeq s.k2))) s
  else raise .invalidArgument s

/-- `SDDEC` (R140): the same structure with the subkeys in the other order (R137). -/
def execSddec (s : State) : Host.Outcome State Fault Refusal :=
  if s.keyValid = false then raise .noKey s
  else if validBits s.va Config.blkLen then
    succeed (setVr (sdesBlock defaultTables s.va (subkeySeq s.k2) (subkeySeq s.k1))) s
  else raise .invalidArgument s

end Sys2Proof.Machine
end

