-- ==== Sys2Proof/Machine/System.lean ====
section
/-!
DEFINITION. The one system command, NOP (43_system.md).
-/
namespace Sys2Proof.Machine

/-- `NOP` (R160): `STATUS.ERR <- 0` and nothing else. -/
def execNop (s : State) : Host.Outcome State Fault Refusal := succeed id s

end Sys2Proof.Machine
end

