-- ==== Sys2Proof/Machine/Dispatch.lean ====
section
/-!
DEFINITION. The command set's dispatch: one arm per command of R73.
-/
namespace Sys2Proof.Machine

/-- Executing a decoded command (R82). -/
def exec (i : Instr) (s : State) : Host.Outcome State Fault Refusal :=
  match i with
  | .nop => Sys2Proof.Machine.execNop s
  | .mod => Sys2Proof.Machine.execMod s
  | .modexp => Sys2Proof.Machine.execModexp s
  | .eea => Sys2Proof.Machine.execEea s
  | .modinv => Sys2Proof.Machine.execModinv s
  | .vperm t => Sys2Proof.Machine.execVperm t s
  | .vrotl => Sys2Proof.Machine.execVrotl s
  | .vxor => Sys2Proof.Machine.execVxor s
  | .visbit => Sys2Proof.Machine.execVisbit s
  | .sdkey => Sys2Proof.Machine.execSdkey s
  | .sdenc => Sys2Proof.Machine.execSdenc s
  | .sddec => Sys2Proof.Machine.execSddec s

end Sys2Proof.Machine
end

