-- ==== Sys2Proof/Machine/Bus.lean ====
section
/-!
DEFINITION. The host's side of a step: executing a command word (R72, R82), the write transaction
(R52), and one event of the host (R14, R60, R190).
-/
namespace Sys2Proof.Machine

/-- Executing the command word `w` (R82): an illegal word is a command whose whole effect is
`raise ILLEGAL_COMMAND` (R75, R176). -/
def executeWord (w : Word) (s : State) : Host.Outcome State Fault Refusal :=
  match decode w with
  | .ok i => exec i s
  | .error _ => raise .illegalCommand s

/-- `HostWrite(addr, data)` (R52); a refused write is one of R53. -/
def hostWrite (addr : Nat) (d : Word) (s : State) : Host.Outcome State Fault Refusal :=
  match portOf addr with
  | none => .refused (.unmappedAddress addr)
  | some .cmd => executeWord d s
  | some .opa => .next (setOpa d s)
  | some .opb => .next (setOpb d s)
  | some .opc => .next (setOpc d s)
  | some .vaLen => writeIfAdmitted (writtenLength s.va d) setVa s
  | some .vbLen => writeIfAdmitted (writtenLength s.vb d) setVb s
  | some (.va i) => writeIfAdmitted (writtenElement addr s.va i d) setVa s
  | some (.vb i) => writeIfAdmitted (writtenElement addr s.vb i d) setVb s
  | some .status => .refused (.writeToReadOnly addr)
  | some .res0 => .refused (.writeToReadOnly addr)
  | some .res1 => .refused (.writeToReadOnly addr)
  | some .res2 => .refused (.writeToReadOnly addr)
  | some .k1 => .refused (.writeToReadOnly addr)
  | some .k2 => .refused (.writeToReadOnly addr)
  | some .vrLen => .refused (.writeToReadOnly addr)
  | some (.vr _) => .refused (.writeToReadOnly addr)

/-- An accepted transaction is answered (R14); anything else stands as it is. -/
def answered (r : Response) (o : Host.Outcome State Fault Refusal) :
    Host.Outcome State Fault Refusal :=
  match o with
  | .next s => .next (respond r s)
  | .fault f => .fault f
  | .refused q => .refused q

/-- One event of the host, performed to completion (R60, R192). -/
def hostEvent (e : HostEvent) (s : State) : Host.Outcome State Fault Refusal :=
  match e with
  | .reset => .next (resetCore s)
  | .read a =>
    match hostRead a s with
    | .ok w => .next (respond (.data w) s)
    | .error r => .refused r
  | .write a d => answered .written (hostWrite a d s)

/-- One step: the host's next event, or, with none pending, the core idle with its state held (R6,
R185). -/
def stepHost (s : State) : Host.Outcome State Fault Refusal :=
  match s.pending with
  | [] => .next s
  | e :: rest => hostEvent e (setPending rest s)

/-- The host about to write `w` to `CMD`, before anything else it will do (log 3). -/
def issueCommand (w : Word) (s : State) : State := setPending (.write 0x00 w :: s.pending) s

end Sys2Proof.Machine
end

