-- ==== Sys2Proof/Machine/Step.lean ====
section
/-!
DEFINITION. One step of the machine, and the placing of a command where the next step finds it.
-/
namespace Sys2Proof.Machine

/-- One host transaction, performed to completion (R6, R60, R192). -/
def step (s : State) : Host.Outcome State Fault Refusal := stepHost s

/-- The state in which the host issues the command word given by the table's bits next (log 3). -/
def State.withFetchWord (s : State) (nbits w : Nat) : State := issueCommand (commandWord nbits w) s

end Sys2Proof.Machine
end

