-- ==== Sys2Proof/Machine/Script.lean ====
section
/-!
DEFINITION. The host-script notation (R79, R80): statements and pseudo-statements as the host events
they stand for. Nothing of the core depends on it.
-/
namespace Sys2Proof.Machine

/-- The three statement forms (R79). -/
inductive Stmt where
  /-- `WR <reg>, <value>`. -/
  | wr (reg : Port) (value : Int)
  /-- `RD <reg>`. -/
  | rd (reg : Port)
  /-- A mnemonic. -/
  | command (i : Instr)
deriving DecidableEq, Repr

/-- The transaction a statement stands for (R79). -/
def stmtEvent : Stmt → HostEvent
  | .wr r v => .write (addressOf r) (bitsW v)
  | .rd r => .read (addressOf r)
  | .command i => .write (addressOf .cmd) (encode i)

/-- A script's encoding: its list of transactions (R79). -/
def scriptEvents (script : List Stmt) : List HostEvent := script.map stmtEvent

/-- `WR <reg>[i], b` for the elements of a sequence, from element `i` on, as far as the map reaches. -/
def elementWrites (reg : Fin 16 → Port) : Nat → List Int → List Stmt
  | _, [] => []
  | i, b :: bs =>
    if h : i < 16 then .wr (reg ⟨i, h⟩) b :: elementWrites reg (i + 1) bs else []

/-- `VLD VA, <bs>` (R80): the length first, then each element in order. -/
def vldVa (bs : List Int) : List Stmt := .wr .vaLen bs.length :: elementWrites .va 0 bs

/-- `VLD VB, <bs>` (R80). -/
def vldVb (bs : List Int) : List Stmt := .wr .vbLen bs.length :: elementWrites .vb 0 bs

/-- `RD VR[0]` to `RD VR[n-1]` (R80), as far as the map reaches. -/
def elementReads (n : Nat) : List Stmt := ((List.finRange 16).take n).map fun i => .rd (.vr i)

/-- `VRD VR` (R80), `n` being the answer to `RD VR_LEN`. -/
def vrd (n : Nat) : List Stmt := .rd .vrLen :: elementReads n

/-- `SET3 a, b, c` (R80). -/
def set3 (a b c : Int) : List Stmt := [.wr .opa a, .wr .opb b, .wr .opc c]

/-- `SET2 a, b` (R80). -/
def set2 (a b : Int) : List Stmt := [.wr .opa a, .wr .opb b]

/-- `CHK <code>` (R80): the transaction. -/
def chk : List Stmt := [.rd .status]

/-- `CHK <code>` (R80): what it states of the answer. -/
def chkHolds (code : BitVec 4) (answer : Word) : Bool := answer.extractLsb' 0 4 == code

end Sys2Proof.Machine
end

