-- ==== Sys2Proof/Safety.lean ====
section
/-!
DEFINITION. What claims call a good state, the invariant of the machine, and a run of several steps.
-/
namespace Sys2Proof.Machine

/-- `K1` and `K2` hold the subkeys of some raw key that `SDKEY` accepts (R26, R132). -/
def holdsKeysOf (s : State) (k : List Word) : Prop :=
  validBits k Config.keyLen = true ∧
    s.k1 = packSubkey (sdesKeys defaultTables k).1 ∧ s.k2 = packSubkey (sdesKeys defaultTables k).2

/-- The invariant: vector lengths are 0 to `VMAX` (R29), `ERR` is 0 to 5 (R25), an error in `ERR` has
left `ESTICKY` set (R27, R171), without a valid key both subkeys read 0 (R31), and with one they are
the subkeys of an accepted raw key (R26). -/
structure State.Inv (s : State) : Prop where
  vaLen : s.va.length ≤ Config.vmax
  vbLen : s.vb.length ≤ Config.vmax
  vrLen : s.vr.length ≤ Config.vmax
  errRange : s.err.toNat ≤ 5
  errSticky : s.err ≠ 0#4 → s.esticky = true
  noKey : s.keyValid = false → s.k1 = 0#8 ∧ s.k2 = 0#8
  keyed : s.keyValid = true → ∃ k, holdsKeysOf s k

/-- `n` steps: the state after the host's next `n` transactions, or the first refusal (R53, R60). -/
def runSteps : Nat → State → Host.Outcome State Fault Refusal
  | 0, s => .next s
  | n + 1, s =>
    match step s with
    | .next t => runSteps n t
    | .fault f => .fault f
    | .refused r => .refused r

end Sys2Proof.Machine
end

