-- ==== Sys2Proof/Certificates/Slice0/Obligations.lean ====
section
/-!
DEFINITION. The statements for the provers. Those about `step` speak of the model's host queue `pending`
(log 1) and answer list `responses` (log 2), which are the model's own; those about `exec`, `hostRead`,
`hostWrite` and the functions do not depend on them. `.next { s with … }` states the frame too: every
register not named keeps its value.
-/
open Sys2Proof Sys2Proof.Machine

/-! ## Reset, the invariant, the host's side of a step -/

/-- R35: after reset every piece of the core's state has the value of the table, whatever it held. -/
def Obligations.ResetGivesTableValues : Prop :=
  ∀ s t : State, t = resetCore s ∨ t = State.reset →
    t.opa.toInt = 0 ∧ t.opb.toInt = 0 ∧ t.opc.toInt = 0 ∧
    t.res0.toInt = 0 ∧ t.res1.toInt = 0 ∧ t.res2.toInt = 0 ∧
    t.va = [] ∧ t.vb = [] ∧ t.vr = [] ∧
    subkeySeq t.k1 = List.replicate 8 0#32 ∧ subkeySeq t.k2 = List.replicate 8 0#32 ∧
    t.err.toNat = 0 ∧ t.keyValid = false ∧ t.esticky = false

/-- R190 as a step: the reset event, whatever the state; the queue and the answers are the host's and
stay (the model's choice, log 6). -/
def Obligations.ResetEventResetsTheCore : Prop :=
  ∀ (s : State) (rest : List HostEvent), s.pending = .reset :: rest →
    step s = .next { State.reset with pending := rest, responses := s.responses }

/-- R6, R185: with no transaction to perform the core is idle and holds its state (log 1). -/
def Obligations.IdleCoreHoldsItsState : Prop :=
  ∀ s : State, s.pending = [] → step s = .next s

/-- The reset state meets the invariant of Sys2Proof/Safety.lean. -/
def Obligations.ResetMeetsTheInvariant : Prop := State.reset.Inv

/-- Every step keeps the invariant: lengths at most 16 (R29), ERR 0 to 5 (R25), an error in ERR has set
ESTICKY (R27), subkeys 0 without a key (R31) and those of an accepted raw key with one (R26). -/
def Obligations.StepKeepsTheInvariant : Prop :=
  ∀ s t : State, s.Inv → step s = .next t → t.Inv

/-- A step runs the decoded command: the head of the queue is taken, the command is executed on the
state, and the write is answered (R60, R82, R14; log 1, log 2). So are an illegal word's raise (R75) and
every other write that is accepted (R52). -/
def Obligations.StepRunsTheDecodedCommand : Prop :=
  (∀ (s : State) (w : Word) (rest : List HostEvent) (i : Instr),
    s.pending = .write 0x00 w :: rest → decode w = .ok i →
    step s =
      match exec i { s with pending := rest } with
      | .next t => .next { t with responses := t.responses ++ [.written] }
      | .fault f => .fault f
      | .refused r => .refused r) ∧
  (∀ (s : State) (w : Word) (rest : List HostEvent) (e : Illegal),
    s.pending = .write 0x00 w :: rest → decode w = .error e →
    step s = .next { s with err := 5#4, esticky := true, pending := rest,
                            responses := s.responses ++ [.written] }) ∧
  ∀ (s t : State) (a : Nat) (d : Word) (rest : List HostEvent),
    s.pending = .write a d :: rest → hostWrite a d { s with pending := rest } = .next t →
    step s = .next { t with responses := t.responses ++ [.written] }

/-- R14, R52, R181: a write to `CMD` is never refused, whatever the word, and is answered `ok`. -/
def Obligations.CmdWriteIsNeverRefused : Prop :=
  ∀ (s : State) (w : Word) (rest : List HostEvent), s.pending = .write 0x00 w :: rest →
    ∃ t, step s = .next t ∧ t.pending = rest ∧ t.responses = s.responses ++ [.written]

/-- R51: an admitted read answers its word and changes nothing of the core (log 1, log 2). -/
def Obligations.ReadChangesNothing : Prop :=
  ∀ (s : State) (a : Nat) (w : Word) (rest : List HostEvent),
    s.pending = .read a :: rest → hostRead a s = .ok w →
    step s = .next { s with pending := rest, responses := s.responses ++ [.data w] }

/-- R53: a refused transaction has no next state: the script has gone wrong. -/
def Obligations.RefusedTransactionStopsTheScript : Prop :=
  ∀ (s : State) (e : HostEvent) (rest : List HostEvent) (r : Refusal),
    s.pending = e :: rest →
    (∃ a, e = .read a ∧ hostRead a s = .error r) ∨
      (∃ a d, e = .write a d ∧ hostWrite a d s = .refused r) →
    step s = .refused r

/-! ## Encoding -/

/-- R72, R73, R74: every command decodes from its word, and no other word decodes to it. -/
def Obligations.DecodeInvertsEncode : Prop :=
  (∀ i : Instr, i.wellFormed = true ∧ decode (encode i) = .ok i) ∧
    ∀ (w : Word) (i : Instr), decode w = .ok i → w = encode i

/-- R75: which words are illegal, and all that writing one to `CMD` does. -/
def Obligations.IllegalWordsRaise : Prop :=
  ∀ (w : Word) (s : State),
    let illegal :=
      w.toNat / 4096 ≠ 0 ∨
      w.toNat % 256 ∉ [0x00, 0x10, 0x11, 0x12, 0x13, 0x20, 0x21, 0x22, 0x23, 0x30, 0x31, 0x32] ∨
      (w.toNat % 256 ≠ 0x20 ∧ w.toNat / 256 % 16 ≠ 0) ∨
      (w.toNat % 256 = 0x20 ∧ 7 ≤ w.toNat / 256 % 16)
    ((∃ e, decode w = .error e) ↔ illegal) ∧
      (illegal → hostWrite 0x00 w s = .next { s with err := 5#4, esticky := true })

/-- R73, R74: the words of the opcode map, written out, `VPERM` with each of its seven selectors. -/
def Obligations.OpcodeMapWordsDecode : Prop :=
  decode 0x00000000#32 = .ok .nop ∧ decode 0x00000010#32 = .ok .mod ∧
  decode 0x00000011#32 = .ok .modexp ∧ decode 0x00000012#32 = .ok .eea ∧
  decode 0x00000013#32 = .ok .modinv ∧ decode 0x00000020#32 = .ok (.vperm .vb) ∧
  decode 0x00000120#32 = .ok (.vperm .p10) ∧ decode 0x00000220#32 = .ok (.vperm .p8) ∧
  decode 0x00000320#32 = .ok (.vperm .ip) ∧ decode 0x00000420#32 = .ok (.vperm .ipinv) ∧
  decode 0x00000520#32 = .ok (.vperm .ep) ∧ decode 0x00000620#32 = .ok (.vperm .p4) ∧
  decode 0x00000021#32 = .ok .vrotl ∧ decode 0x00000022#32 = .ok .vxor ∧
  decode 0x00000023#32 = .ok .visbit ∧ decode 0x00000030#32 = .ok .sdkey ∧
  decode 0x00000031#32 = .ok .sdenc ∧ decode 0x00000032#32 = .ok .sddec

/-! ## Commands in general -/

/-- R82, R171, R195: every command, in every state, ends in a next state: success, with ERR 0 and
ESTICKY as it was, or a raise, with ERR 1 to 5, ESTICKY 1 and nothing else written. -/
def Obligations.CommandSucceedsOrRaises : Prop :=
  ∀ (i : Instr) (s : State), ∃ t, exec i s = .next t ∧
    ((t.err = 0#4 ∧ t.esticky = s.esticky) ∨
      ∃ c : BitVec 4, 1 ≤ c.toNat ∧ c.toNat ≤ 5 ∧ t = { s with err := c, esticky := true })

/-- R21, R29: no command writes an operand register, an integer or a vector one; nor the host's queue
or answers. -/
def Obligations.CommandsLeaveTheirOperands : Prop :=
  ∀ (i : Instr) (s t : State), exec i s = .next t →
    t.opa = s.opa ∧ t.opb = s.opb ∧ t.opc = s.opc ∧ t.va = s.va ∧ t.vb = s.vb ∧
    t.pending = s.pending ∧ t.responses = s.responses

/-- Frame of MOD, MODEXP, MODINV and VISBIT (R22): only RES0, ERR and ESTICKY, and so only what
addresses 0x01 and 0x05 read as, can change. -/
def Obligations.SingleResultFrame : Prop :=
  ∀ (i : Instr) (s t : State), i ∈ [Instr.mod, .modexp, .modinv, .visbit] → exec i s = .next t →
    t = { s with res0 := t.res0, err := t.err, esticky := t.esticky } ∧
    ∀ a : Nat, a ≠ 0x01 → a ≠ 0x05 → hostRead a t = hostRead a s

/-- Frame of EEA (R22): only RES0, RES1, RES2, ERR and ESTICKY, at addresses 0x01 and 0x05 to 0x07. -/
def Obligations.EeaFrame : Prop :=
  ∀ s t : State, exec .eea s = .next t →
    t = { s with res0 := t.res0, res1 := t.res1, res2 := t.res2, err := t.err,
                 esticky := t.esticky } ∧
    ∀ a : Nat, a ≠ 0x01 → ¬ (0x05 ≤ a ∧ a ≤ 0x07) → hostRead a t = hostRead a s

/-- Frame of VPERM, VROTL, VXOR, SDENC and SDDEC (R29): only VR, ERR and ESTICKY, at addresses 0x01,
0x12 and 0x40 to 0x4F. -/
def Obligations.VectorResultFrame : Prop :=
  ∀ (i : Instr) (s t : State),
    (∃ sel, i = .vperm sel) ∨ i ∈ [Instr.vrotl, .vxor, .sdenc, .sddec] → exec i s = .next t →
    t = { s with vr := t.vr, err := t.err, esticky := t.esticky } ∧
    ∀ a : Nat, a ≠ 0x01 → a ≠ 0x12 → ¬ (0x40 ≤ a ∧ a < 0x50) → hostRead a t = hostRead a s

/-- Frame of SDKEY (R132): only K1, K2, KEYVALID, ERR and ESTICKY, at addresses 0x01, 0x08 and 0x09. -/
def Obligations.KeyLoadFrame : Prop :=
  ∀ s t : State, exec .sdkey s = .next t →
    t = { s with k1 := t.k1, k2 := t.k2, keyValid := t.keyValid, err := t.err,
                 esticky := t.esticky } ∧
    ∀ a : Nat, a ≠ 0x01 → a ≠ 0x08 → a ≠ 0x09 → hostRead a t = hostRead a s

/-- R172 with R177: `INVALID_ARGUMENT` is raised by SDKEY on anything but ten bits, by SDENC and SDDEC on
anything but eight bits once `NO_KEY`, checked first, has not been raised, and by nothing else. -/
def Obligations.InvalidArgumentCauses : Prop :=
  ∀ (i : Instr) (s t : State), exec i s = .next t →
    (t.err = 1#4 ↔
      (i = .sdkey ∧ ¬ (s.va.length = 10 ∧ ∀ e ∈ s.va, e.toInt = 0 ∨ e.toInt = 1)) ∨
      ((i = .sdenc ∨ i = .sddec) ∧ s.keyValid = true ∧
        ¬ (s.va.length = 8 ∧ ∀ e ∈ s.va, e.toInt = 0 ∨ e.toInt = 1)))

/-- R173: `DOMAIN` is raised by the four numeric commands under the conditions of the table, and by
nothing else; EEA's row "a result not in `int_W`" cannot occur. -/
def Obligations.DomainCauses : Prop :=
  ∀ (i : Instr) (s t : State), exec i s = .next t →
    (t.err = 2#4 ↔
      (i = .mod ∧ s.opb.toInt < 1) ∨
      (i = .modexp ∧ (s.opb.toInt < 0 ∨ s.opc.toInt < 1)) ∨
      (i = .eea ∧ (s.opa.toInt < 0 ∨ s.opb.toInt < 0)) ∨
      (i = .modinv ∧ (s.opb.toInt < 1 ∨ Int.gcd (s.opa.toInt % s.opb.toInt) s.opb.toInt ≠ 1)))

/-- R174: `BOUNDS` is raised by VPERM, VROTL and VXOR under the conditions of the table, and by nothing
else (the fixed tables of VPERM have the values of R34, log 4). -/
def Obligations.BoundsCauses : Prop :=
  ∀ (i : Instr) (s t : State), exec i s = .next t →
    (t.err = 3#4 ↔
      (∃ sel, i = .vperm sel ∧
        ∃ e ∈ selectedTable defaultTables sel s, e < 1 ∨ (s.va.length : Int) < e) ∨
      (i = .vrotl ∧ s.opa.toInt < 0) ∨
      (i = .vxor ∧ s.va.length ≠ s.vb.length))

/-- R175: `NO_KEY` is raised by SDENC and SDDEC exactly when KEYVALID is 0. -/
def Obligations.NoKeyCauses : Prop :=
  ∀ (i : Instr) (s t : State), exec i s = .next t →
    (t.err = 4#4 ↔ (i = .sdenc ∨ i = .sddec) ∧ s.keyValid = false)

/-- R25 to R27, R143, R190: nothing but reset clears ESTICKY or KEYVALID; only a command that raises
sets ESTICKY; only a CMD write or reset changes ERR, ESTICKY or KEYVALID. -/
def Obligations.StatusChangesOnlyByItsCauses : Prop :=
  ∀ s t : State, step s = .next t → (∀ rest, s.pending ≠ .reset :: rest) →
    (s.esticky = true → t.esticky = true) ∧
    (s.keyValid = true → t.keyValid = true) ∧
    (s.esticky = false → t.esticky = true → t.err ≠ 0#4) ∧
    ((∀ w rest, s.pending ≠ .write 0x00 w :: rest) →
      t.err = s.err ∧ t.esticky = s.esticky ∧ t.keyValid = s.keyValid)

/-- R26, R143: between resets the subkeys and KEYVALID change only by a write of the SDKEY word with ten
bits in VA. -/
def Obligations.KeyChangesOnlyBySdkey : Prop :=
  ∀ s t : State, step s = .next t → (∀ rest, s.pending ≠ .reset :: rest) →
    (t.k1 ≠ s.k1 ∨ t.k2 ≠ s.k2 ∨ t.keyValid ≠ s.keyValid) →
    (∃ rest, s.pending = .write 0x00 0x00000030#32 :: rest) ∧
      s.va.length = 10 ∧ ∀ e ∈ s.va, e.toInt = 0 ∨ e.toInt = 1

/-- R57, R194: a command repeated at once, on the operands as they are, leaves the state as its first
execution left it. -/
def Obligations.CommandsRepeatIdentically : Prop :=
  ∀ (i : Instr) (s t : State), exec i s = .next t → exec i t = .next t

/-! ## System and numeric commands -/

/-- R160: NOP writes ERR and nothing else, in every state. -/
def Obligations.NopClearsErr : Prop :=
  decode 0x00000000#32 = .ok .nop ∧ ∀ s : State, exec .nop s = .next { s with err := 0#4 }

/-- R90, R91: MOD delivers the remainder in [0, OPB), or raises when OPB is below 1. -/
def Obligations.ModDeliversTheRemainder : Prop :=
  decode 0x00000010#32 = .ok .mod ∧
  ∀ s : State,
    (s.opb.toInt < 1 → exec .mod s = .next { s with err := 2#4, esticky := true }) ∧
    (1 ≤ s.opb.toInt → ∃ r : Int, 0 ≤ r ∧ r < s.opb.toInt ∧ s.opb.toInt ∣ s.opa.toInt - r ∧
      exec .mod s = .next { s with res0 := BitVec.ofInt 32 r, err := 0#4 } ∧
      (BitVec.ofInt 32 r).toInt = r)

/-- R92, R93: MODEXP delivers the exact power reduced, or raises. -/
def Obligations.ModexpDeliversThePower : Prop :=
  decode 0x00000011#32 = .ok .modexp ∧
  ∀ s : State,
    (s.opb.toInt < 0 ∨ s.opc.toInt < 1 →
      exec .modexp s = .next { s with err := 2#4, esticky := true }) ∧
    (0 ≤ s.opb.toInt → 1 ≤ s.opc.toInt →
      ∃ r : Int, r = s.opa.toInt ^ s.opb.toInt.toNat % s.opc.toInt ∧ 0 ≤ r ∧ r < s.opc.toInt ∧
        exec .modexp s = .next { s with res0 := BitVec.ofInt 32 r, err := 0#4 } ∧
        (BitVec.ofInt 32 r).toInt = r)

/-- R92, the step-by-step definition: the engine's function starts from `1 mod m` and multiplies by the
base once per unit of the exponent. -/
def Obligations.ModexpIsRepeatedMultiplication : Prop :=
  ∀ b m : Int, 1 ≤ m →
    modexp b 0 m = modulo 1 m ∧
    ∀ k : Nat, modexp b ((k : Int) + 1) m = modulo (modexp b k m * b) m

/-- R95: EEA delivers the triple of R94's recursion, which always fits, or raises on a negative
operand; the recursion's two equations are stated first. -/
def Obligations.EeaDeliversTheTriple : Prop :=
  decode 0x00000012#32 = .ok .eea ∧
  (∀ a : Nat, eea a 0 = (a, 1, 0)) ∧
  (∀ (a b g : Nat) (x1 y1 : Int), 1 ≤ b → eea b (a % b) = (g, x1, y1) →
    eea a b = (g, y1, x1 - (a / b : Nat) * y1)) ∧
  ∀ s : State,
    (s.opa.toInt < 0 ∨ s.opb.toInt < 0 →
      exec .eea s = .next { s with err := 2#4, esticky := true }) ∧
    (0 ≤ s.opa.toInt → 0 ≤ s.opb.toInt →
      ∃ (g : Nat) (x y : Int), (g, x, y) = eea s.opa.toInt.toNat s.opb.toInt.toNat ∧
        (g : Int) ≤ max s.opa.toInt s.opb.toInt ∧ |x| ≤ max 1 s.opb.toInt ∧
        |y| ≤ max 1 s.opa.toInt ∧
        exec .eea s = .next { s with res0 := BitVec.ofInt 32 g, res1 := BitVec.ofInt 32 x,
                                     res2 := BitVec.ofInt 32 y, err := 0#4 } ∧
        (BitVec.ofInt 32 g).toInt = g ∧ (BitVec.ofInt 32 x).toInt = x ∧
        (BitVec.ofInt 32 y).toInt = y)

/-- R94: after a successful EEA the registers satisfy `OPA*RES1 + OPB*RES2 = RES0 = gcd`. -/
def Obligations.EeaSatisfiesBezout : Prop :=
  ∀ s t : State, exec .eea s = .next t → t.err = 0#4 →
    s.opa.toInt * t.res1.toInt + s.opb.toInt * t.res2.toInt = t.res0.toInt ∧
    t.res0.toInt = Int.gcd s.opa.toInt s.opb.toInt

/-- R96, R97: MODINV delivers the inverse in [0, OPB), or raises when OPB is below 1 or there is none. -/
def Obligations.ModinvDeliversTheInverse : Prop :=
  decode 0x00000013#32 = .ok .modinv ∧
  ∀ s : State,
    (s.opb.toInt < 1 ∨ Int.gcd (s.opa.toInt % s.opb.toInt) s.opb.toInt ≠ 1 →
      exec .modinv s = .next { s with err := 2#4, esticky := true }) ∧
    (1 ≤ s.opb.toInt → Int.gcd (s.opa.toInt % s.opb.toInt) s.opb.toInt = 1 →
      ∃ x : Int, 0 ≤ x ∧ x < s.opb.toInt ∧
        s.opa.toInt * x % s.opb.toInt = 1 % s.opb.toInt ∧
        exec .modinv s = .next { s with res0 := BitVec.ofInt 32 x, err := 0#4 } ∧
        (BitVec.ofInt 32 x).toInt = x)

/-! ## Bit-vector commands -/

/-- R74, R110, R111: VPERM delivers `r[i] = VA[t[i] - 1]` for the selected table, or raises when an entry
is no position of VA. The table of each selector is written out (the values of R34, log 4). -/
def Obligations.VpermDeliversThePermutation : Prop :=
  ∀ (sel : TableSel) (s : State),
    let table : List Int :=
      match sel with
      | .vb => s.vb.map BitVec.toInt
      | .p10 => [3, 5, 2, 7, 4, 10, 1, 9, 8, 6]
      | .p8 => [6, 3, 7, 4, 8, 5, 10, 9]
      | .ip => [2, 6, 3, 1, 4, 8, 5, 7]
      | .ipinv => [4, 1, 3, 5, 7, 2, 8, 6]
      | .ep => [4, 1, 2, 3, 2, 3, 4, 1]
      | .p4 => [2, 4, 3, 1]
    ((∃ e ∈ table, e < 1 ∨ (s.va.length : Int) < e) →
      exec (.vperm sel) s = .next { s with err := 3#4, esticky := true }) ∧
    ((∀ e ∈ table, 1 ≤ e ∧ e ≤ (s.va.length : Int)) →
      ∃ r : List Word, r.length = table.length ∧
        (∀ (i : Nat) (e : Int), table[i]? = some e → r[i]? = s.va[(e - 1).toNat]?) ∧
        exec (.vperm sel) s = .next { s with vr := r, err := 0#4 })

/-- R111: how long VA must be for each fixed table (the values of R34, log 4). -/
def Obligations.FixedTableMinimumLengths : Prop :=
  ∀ (s : State) (sel : TableSel) (n : Nat),
    (sel, n) ∈ [(TableSel.p10, 10), (.p8, 10), (.ip, 8), (.ipinv, 8), (.ep, 4), (.p4, 4)] →
    ((∃ t, exec (.vperm sel) s = .next t ∧ t.err = 0#4) ↔ n ≤ s.va.length)

/-- R112, R113: VROTL delivers `r[i] = VA[(i + OPA) mod n]`, or raises on a negative distance. -/
def Obligations.VrotlDeliversTheRotation : Prop :=
  decode 0x00000021#32 = .ok .vrotl ∧
  ∀ s : State,
    (s.opa.toInt < 0 → exec .vrotl s = .next { s with err := 3#4, esticky := true }) ∧
    (0 ≤ s.opa.toInt →
      ∃ r : List Word, r.length = s.va.length ∧
        (∀ i : Nat, i < s.va.length →
          r[i]? = s.va[(i + s.opa.toInt.toNat) % s.va.length]?) ∧
        exec .vrotl s = .next { s with vr := r, err := 0#4 })

/-- R112: rotations add up, and a rotation by the length is none. -/
def Obligations.RotationsAddUp : Prop :=
  ∀ (s : List Word) (d e : Nat),
    rotl (rotl s d) e = rotl s (d + e) ∧ rotl s s.length = s

/-- R114, R115: VXOR delivers the element-wise exclusive-or, or raises on unequal lengths. -/
def Obligations.VxorDeliversTheXor : Prop :=
  decode 0x00000022#32 = .ok .vxor ∧
  ∀ s : State,
    (s.va.length ≠ s.vb.length →
      exec .vxor s = .next { s with err := 3#4, esticky := true }) ∧
    (s.va.length = s.vb.length →
      ∃ r : List Word, r.length = s.va.length ∧
        (∀ (i : Nat) (a b : Word), s.va[i]? = some a → s.vb[i]? = some b →
          r[i]? = some (a ^^^ b)) ∧
        exec .vxor s = .next { s with vr := r, err := 0#4 })

/-- R115: `vxor` undoes itself, and a sequence with itself gives zeros. -/
def Obligations.XorUndoesItself : Prop :=
  ∀ a b : List Word, a.length = b.length →
    vxor (vxor a b) b = a ∧ vxor a a = List.replicate a.length 0#32

/-- R116, R117: VISBIT answers 1 when every element of VA is 0 or 1 and 0 otherwise, and never raises. -/
def Obligations.VisbitAnswersWhetherBits : Prop :=
  decode 0x00000023#32 = .ok .visbit ∧
  ∀ s : State,
    ((∀ e ∈ s.va, e.toInt = 0 ∨ e.toInt = 1) →
      exec .visbit s = .next { s with res0 := 1#32, err := 0#4 }) ∧
    ((∃ e ∈ s.va, e.toInt ≠ 0 ∧ e.toInt ≠ 1) →
      exec .visbit s = .next { s with res0 := 0#32, err := 0#4 })

/-! ## S-DES commands -/

/-- R131, R132: SDKEY derives both subkeys from ten bits in VA, rotating the halves by 1 and by 3 in all,
or raises (tables of R34, log 4). -/
def Obligations.SdkeyDerivesTheSubkeys : Prop :=
  decode 0x00000030#32 = .ok .sdkey ∧
  ∀ s : State,
    let p := permute s.va defaultTables.p10
    (¬ (s.va.length = 10 ∧ ∀ e ∈ s.va, e.toInt = 0 ∨ e.toInt = 1) →
      exec .sdkey s = .next { s with err := 1#4, esticky := true }) ∧
    (s.va.length = 10 → (∀ e ∈ s.va, e.toInt = 0 ∨ e.toInt = 1) →
      ∃ a b : BitVec 8,
        exec .sdkey s = .next { s with k1 := a, k2 := b, keyValid := true, err := 0#4 } ∧
        subkeySeq a = permute (rotl (p.take 5) 1 ++ rotl (p.drop 5) 1) defaultTables.p8 ∧
        subkeySeq b = permute (rotl (p.take 5) 3 ++ rotl (p.drop 5) 3) defaultTables.p8)

/-- R136, R137, R139, R140, R177: SDENC and SDDEC transform eight bits in VA with the subkeys in either
order, or raise, `NO_KEY` first. The block function is written out as R136 expands it: after the first
round `(L1, R1)`, the output is IPINV of `vxor(L1, f(R1, Kb)) ++ R1` (tables of R34, log 4). -/
def Obligations.SdencAndSddecTransformTheBlock : Prop :=
  decode 0x00000031#32 = .ok .sdenc ∧ decode 0x00000032#32 = .ok .sddec ∧
  ∀ s : State,
    let T := defaultTables
    let block := fun ka kb : List Word =>
      let p := permute s.va T.ip
      let r1 := vxor (p.take 4) (sdesF T (p.drop 4) ka)
      permute (vxor (p.drop 4) (sdesF T r1 kb) ++ r1) T.ipinv
    let isBlock := s.va.length = 8 ∧ ∀ e ∈ s.va, e.toInt = 0 ∨ e.toInt = 1
    (s.keyValid = false →
      exec .sdenc s = .next { s with err := 4#4, esticky := true } ∧
      exec .sddec s = .next { s with err := 4#4, esticky := true }) ∧
    (s.keyValid = true → ¬ isBlock →
      exec .sdenc s = .next { s with err := 1#4, esticky := true } ∧
      exec .sddec s = .next { s with err := 1#4, esticky := true }) ∧
    (s.keyValid = true → isBlock →
      exec .sdenc s =
        .next { s with vr := block (subkeySeq s.k1) (subkeySeq s.k2), err := 0#4 } ∧
      exec .sddec s =
        .next { s with vr := block (subkeySeq s.k2) (subkeySeq s.k1), err := 0#4 })

/-- R133, R134: the round function, bit by bit: `e` is EP of `R`, `t` its exclusive-or with the subkey,
and the S-box rows and columns are taken from bits 0, 3 and 1, 2 of each half of `t`. The two boxes the
commands use are written out (the values of R34, log 4). -/
def Obligations.RoundFunctionLooksUpBothBoxes : Prop :=
  defaultTables.s0 = [[1, 0, 3, 2], [3, 2, 1, 0], [0, 2, 1, 3], [3, 1, 3, 2]] ∧
  defaultTables.s1 = [[0, 1, 2, 3], [2, 0, 1, 3], [3, 0, 1, 0], [2, 1, 0, 3]] ∧
  ∀ (T : Config.Tables) (r k : List Word) (t0 t1 t2 t3 t4 t5 t6 t7 : Word) (u v : Nat)
    (row0 row1 : List Nat),
    vxor (permute r T.ep) k = [t0, t1, t2, t3, t4, t5, t6, t7] →
    T.s0[2 * t0.toNat + t3.toNat]? = some row0 → row0[2 * t1.toNat + t2.toNat]? = some u →
    T.s1[2 * t4.toNat + t7.toNat]? = some row1 → row1[2 * t5.toNat + t6.toNat]? = some v →
    sdesF T r k =
      permute [BitVec.ofNat 32 (u / 2), BitVec.ofNat 32 (u % 2), BitVec.ofNat 32 (v / 2),
        BitVec.ofNat 32 (v % 2)] T.p4

/-- R142: for every well-formed `TABLES`, every two subkeys and every block, the block transform with the
subkeys exchanged undoes it. -/
def Obligations.BlockTransformRoundTrips : Prop :=
  ∀ (T : Config.Tables) (ka kb b : List Word),
    T.wellFormed = true → validBits ka 8 = true → validBits kb 8 = true → validBits b 8 = true →
    sdesBlock T (sdesBlock T b ka kb) kb ka = b

/-- R142 on the machine: with a key loaded, decrypting the result of an encryption, or encrypting the
result of a decryption, gives back the block. -/
def Obligations.DecryptionUndoesEncryption : Prop :=
  ∀ s : State, s.keyValid = true → s.va.length = 8 → (∀ e ∈ s.va, e.toInt = 0 ∨ e.toInt = 1) →
    (∃ t u, exec .sdenc s = .next t ∧ t.err = 0#4 ∧ exec .sddec { t with va := t.vr } = .next u ∧
      u.err = 0#4 ∧ u.vr = s.va) ∧
    (∃ t u, exec .sddec s = .next t ∧ t.err = 0#4 ∧ exec .sdenc { t with va := t.vr } = .next u ∧
      u.err = 0#4 ∧ u.vr = s.va)

/-- R29, R139, R140: a successful SDENC or SDDEC leaves eight elements in VR, each 0 or 1. -/
def Obligations.SdesResultIsABlock : Prop :=
  ∀ (i : Instr) (s t : State), i = .sdenc ∨ i = .sddec → exec i s = .next t → t.err = 0#4 →
    t.vr.length = 8 ∧ ∀ e ∈ t.vr, e.toInt = 0 ∨ e.toInt = 1

/-- R144: SDENC and SDDEC see VA, K1, K2 and KEYVALID only: two states that agree on these give the same
error and, on success, the same block, whatever else they hold. -/
def Obligations.SdesReadsOnlyItsOperands : Prop :=
  ∀ (i : Instr) (s t s' t' : State), i = .sdenc ∨ i = .sddec →
    s.va = s'.va → s.k1 = s'.k1 → s.k2 = s'.k2 → s.keyValid = s'.keyValid →
    exec i s = .next t → exec i s' = .next t' →
    t.err = t'.err ∧ (t.err = 0#4 → t.vr = t'.vr)

/-- R119: the key schedule recomputed with BPU commands, as program P4 of the spec does it, gives the
subkeys SDKEY loads, and disturbs no loaded key; every command of it succeeds. -/
def Obligations.KeyScheduleOnTheBpuAgrees : Prop :=
  ∀ s : State, s.va.length = 10 → (∀ e ∈ s.va, e.toInt = 0 ∨ e.toInt = 1) →
    ∃ k p l1 r1 c1 l3 r3 c2 : State,
      exec .sdkey s = .next k ∧ k.err = 0#4 ∧
      exec (.vperm .p10) k = .next p ∧ p.err = 0#4 ∧
      exec .vrotl { p with va := p.vr.take 5, opa := 1#32 } = .next l1 ∧ l1.err = 0#4 ∧
      exec .vrotl { l1 with va := p.vr.drop 5 } = .next r1 ∧ r1.err = 0#4 ∧
      exec (.vperm .p8) { r1 with va := l1.vr ++ r1.vr } = .next c1 ∧ c1.err = 0#4 ∧
      exec .vrotl { c1 with va := l1.vr, opa := 2#32 } = .next l3 ∧ l3.err = 0#4 ∧
      exec .vrotl { l3 with va := r1.vr } = .next r3 ∧ r3.err = 0#4 ∧
      exec (.vperm .p8) { r3 with va := l3.vr ++ r3.vr } = .next c2 ∧ c2.err = 0#4 ∧
      subkeySeq k.k1 = c1.vr ∧ subkeySeq k.k2 = c2.vr ∧
      c2.k1 = k.k1 ∧ c2.k2 = k.k2 ∧ c2.keyValid = true ∧
      c2.esticky = s.esticky

/-! ## The register space -/

/-- R24: the STATUS word, field by field; a write to it is refused. -/
def Obligations.StatusWordLayout : Prop :=
  ∀ s : State,
    (∃ w : Word, hostRead 0x01 s = .ok w ∧
      w.toNat = s.err.toNat + 16 * s.keyValid.toNat + 32 * s.esticky.toNat ∧
      w.extractLsb' 0 4 = s.err ∧ w.getLsbD 4 = s.keyValid ∧ w.getLsbD 5 = s.esticky ∧
      ∀ i : Nat, 6 ≤ i → w.getLsbD i = false) ∧
    ∀ d : Word, ∃ r, hostWrite 0x01 d s = .refused r

/-- R31: K1 and K2 read as the packed eight bits, 0 to 255, element 0 being bit 7; they read as 0 while
no key is valid, in every state that meets the invariant; a write to either is refused. -/
def Obligations.SubkeyReadsArePacked : Prop :=
  ∀ s : State,
    (∃ a b : Word, hostRead 0x08 s = .ok a ∧ hostRead 0x09 s = .ok b ∧
      a.toNat ≤ 255 ∧ b.toNat ≤ 255 ∧
      a.toNat = pack (subkeySeq s.k1) ∧ b.toNat = pack (subkeySeq s.k2) ∧
      (∀ i : Nat, i < 8 →
        (subkeySeq s.k1)[i]? = some (BitVec.ofNat 32 (a.getLsbD (7 - i)).toNat) ∧
        (subkeySeq s.k2)[i]? = some (BitVec.ofNat 32 (b.getLsbD (7 - i)).toNat)) ∧
      (s.Inv → s.keyValid = false → a = 0#32 ∧ b = 0#32)) ∧
    ∀ d : Word, (∃ r, hostWrite 0x08 d s = .refused r) ∧ ∃ r, hostWrite 0x09 d s = .refused r

/-- R50, R51, R53: exactly these reads are admitted; every other is refused. Which word each admitted read
answers follows; STATUS and the subkeys stand packed (R24, R12). -/
def Obligations.AdmittedReads : Prop :=
  ∀ (a : Nat) (s : State),
    let admitted :=
      (0x01 ≤ a ∧ a ≤ 0x09) ∨ (0x10 ≤ a ∧ a ≤ 0x12) ∨
      (0x20 ≤ a ∧ a < 0x30 ∧ a - 0x20 < s.va.length) ∨
      (0x30 ≤ a ∧ a < 0x40 ∧ a - 0x30 < s.vb.length) ∨
      (0x40 ≤ a ∧ a < 0x50 ∧ a - 0x40 < s.vr.length)
    (admitted → ∃ w, hostRead a s = .ok w) ∧ (¬ admitted → ∃ r, hostRead a s = .error r) ∧
    hostRead 0x01 s =
      .ok (BitVec.ofNat 32 (s.err.toNat + 16 * s.keyValid.toNat + 32 * s.esticky.toNat)) ∧
    hostRead 0x02 s = .ok s.opa ∧ hostRead 0x03 s = .ok s.opb ∧ hostRead 0x04 s = .ok s.opc ∧
    hostRead 0x05 s = .ok s.res0 ∧ hostRead 0x06 s = .ok s.res1 ∧ hostRead 0x07 s = .ok s.res2 ∧
    hostRead 0x08 s = .ok (BitVec.ofNat 32 (pack (subkeySeq s.k1))) ∧
    hostRead 0x09 s = .ok (BitVec.ofNat 32 (pack (subkeySeq s.k2))) ∧
    hostRead 0x10 s = .ok (bitsW s.va.length) ∧ hostRead 0x11 s = .ok (bitsW s.vb.length) ∧
    hostRead 0x12 s = .ok (bitsW s.vr.length) ∧
    ∀ (i : Nat) (w : Word), i < 16 →
      (s.va[i]? = some w → hostRead (0x20 + i) s = .ok w) ∧
      (s.vb[i]? = some w → hostRead (0x30 + i) s = .ok w) ∧
      (s.vr[i]? = some w → hostRead (0x40 + i) s = .ok w)

/-- R50, R52, R53: exactly these writes are admitted; every other is refused. -/
def Obligations.AdmittedWrites : Prop :=
  ∀ (a : Nat) (d : Word) (s : State),
    let admitted :=
      a = 0x00 ∨ (0x02 ≤ a ∧ a ≤ 0x04) ∨
      ((a = 0x10 ∨ a = 0x11) ∧ 0 ≤ d.toInt ∧ d.toInt ≤ 16) ∨
      (0x20 ≤ a ∧ a < 0x30 ∧ a - 0x20 < s.va.length) ∨
      (0x30 ≤ a ∧ a < 0x40 ∧ a - 0x30 < s.vb.length)
    (admitted → ∃ t, hostWrite a d s = .next t) ∧ (¬ admitted → ∃ r, hostWrite a d s = .refused r)

/-- R54, R57: a word written to a register other than CMD is the word read back. -/
def Obligations.WrittenWordReadsBack : Prop :=
  ∀ (a : Nat) (d : Word) (s t : State), a ≠ 0x00 → hostWrite a d s = .next t →
    hostRead a t = .ok d

/-- R36, R52: a write to a register other than CMD changes that register alone: the state but for the
operand registers, each operand register not named, and every other element. -/
def Obligations.RegisterWriteFrame : Prop :=
  ∀ (a : Nat) (d : Word) (s t : State), a ≠ 0x00 → hostWrite a d s = .next t →
    t = { s with opa := t.opa, opb := t.opb, opc := t.opc, va := t.va, vb := t.vb } ∧
    (a ≠ 0x02 → t.opa = s.opa) ∧ (a ≠ 0x03 → t.opb = s.opb) ∧ (a ≠ 0x04 → t.opc = s.opc) ∧
    (a ≠ 0x10 → ¬ (0x20 ≤ a ∧ a < 0x30) → t.va = s.va) ∧
    (a ≠ 0x11 → ¬ (0x30 ≤ a ∧ a < 0x40) → t.vb = s.vb) ∧
    (a ≠ 0x10 → a ≠ 0x11 → ∀ b : Nat, b ≠ a → hostRead b t = hostRead b s)

/-- R57: every write other than to CMD is idempotent, a length write too. -/
def Obligations.RegisterWritesAreIdempotent : Prop :=
  ∀ (a : Nat) (d : Word) (s t : State), a ≠ 0x00 → hostWrite a d s = .next t →
    hostWrite a d t = .next t

/-- R30: writing `n` from 0 to 16 to a length register keeps the elements below the shorter of the two
lengths and makes the new ones 0; reading a length register answers the length. -/
def Obligations.LengthWriteResizes : Prop :=
  ∀ (s : State) (n : Nat), n ≤ 16 →
    (∃ v : List Word, hostWrite 0x10 (BitVec.ofNat 32 n) s = .next { s with va := v } ∧
      v.length = n ∧ ∀ i : Nat, i < n → v[i]? = some (s.va[i]?.getD 0#32)) ∧
    (∃ v : List Word, hostWrite 0x11 (BitVec.ofNat 32 n) s = .next { s with vb := v } ∧
      v.length = n ∧ ∀ i : Nat, i < n → v[i]? = some (s.vb[i]?.getD 0#32)) ∧
    hostRead 0x10 s = .ok (bitsW s.va.length) ∧ hostRead 0x11 s = .ok (bitsW s.vb.length) ∧
    hostRead 0x12 s = .ok (bitsW s.vr.length)

/-- R80: after `VLD VA, bs` the register VA equals `bs` exactly, whatever it held before, and nothing else
of the core has changed; likewise VB (the queue and the answers are the model's, log 1, log 2). -/
def Obligations.VectorLoadLoadsExactly : Prop :=
  ∀ (s : State) (bs : List Int) (rest : List HostEvent), bs.length ≤ 16 →
    (s.pending = scriptEvents (vldVa bs) ++ rest →
      runSteps (bs.length + 1) s =
        .next { s with va := bs.map (BitVec.ofInt 32), pending := rest,
                       responses := s.responses ++ List.replicate (bs.length + 1) .written }) ∧
    (s.pending = scriptEvents (vldVb bs) ++ rest →
      runSteps (bs.length + 1) s =
        .next { s with vb := bs.map (BitVec.ofInt 32), pending := rest,
                       responses := s.responses ++ List.replicate (bs.length + 1) .written })
end

