-- ==== Sys2Proof/Laws/State.lean ====
section
/-!
SUPPORT. One lemma per field per named update of State, each true by rfl, so that no proof unfolds a
record update; and the fields of State.reset (R35).
-/
namespace Sys2Proof.Machine

@[simp] theorem setRes0_opa (v : Word) (s : State) : (setRes0 v s).opa = s.opa := rfl
@[simp] theorem setRes0_opb (v : Word) (s : State) : (setRes0 v s).opb = s.opb := rfl
@[simp] theorem setRes0_opc (v : Word) (s : State) : (setRes0 v s).opc = s.opc := rfl
@[simp] theorem setRes0_res0 (v : Word) (s : State) : (setRes0 v s).res0 = v := rfl
@[simp] theorem setRes0_res1 (v : Word) (s : State) : (setRes0 v s).res1 = s.res1 := rfl
@[simp] theorem setRes0_res2 (v : Word) (s : State) : (setRes0 v s).res2 = s.res2 := rfl
@[simp] theorem setRes0_va (v : Word) (s : State) : (setRes0 v s).va = s.va := rfl
@[simp] theorem setRes0_vb (v : Word) (s : State) : (setRes0 v s).vb = s.vb := rfl
@[simp] theorem setRes0_vr (v : Word) (s : State) : (setRes0 v s).vr = s.vr := rfl
@[simp] theorem setRes0_k1 (v : Word) (s : State) : (setRes0 v s).k1 = s.k1 := rfl
@[simp] theorem setRes0_k2 (v : Word) (s : State) : (setRes0 v s).k2 = s.k2 := rfl
@[simp] theorem setRes0_err (v : Word) (s : State) : (setRes0 v s).err = s.err := rfl
@[simp] theorem setRes0_keyValid (v : Word) (s : State) : (setRes0 v s).keyValid = s.keyValid := rfl
@[simp] theorem setRes0_esticky (v : Word) (s : State) : (setRes0 v s).esticky = s.esticky := rfl
@[simp] theorem setRes0_pending (v : Word) (s : State) : (setRes0 v s).pending = s.pending := rfl
@[simp] theorem setRes0_responses (v : Word) (s : State) : (setRes0 v s).responses = s.responses := rfl

@[simp] theorem setResults_opa (g x y : Word) (s : State) : (setResults g x y s).opa = s.opa := rfl
@[simp] theorem setResults_opb (g x y : Word) (s : State) : (setResults g x y s).opb = s.opb := rfl
@[simp] theorem setResults_opc (g x y : Word) (s : State) : (setResults g x y s).opc = s.opc := rfl
@[simp] theorem setResults_res0 (g x y : Word) (s : State) : (setResults g x y s).res0 = g := rfl
@[simp] theorem setResults_res1 (g x y : Word) (s : State) : (setResults g x y s).res1 = x := rfl
@[simp] theorem setResults_res2 (g x y : Word) (s : State) : (setResults g x y s).res2 = y := rfl
@[simp] theorem setResults_va (g x y : Word) (s : State) : (setResults g x y s).va = s.va := rfl
@[simp] theorem setResults_vb (g x y : Word) (s : State) : (setResults g x y s).vb = s.vb := rfl
@[simp] theorem setResults_vr (g x y : Word) (s : State) : (setResults g x y s).vr = s.vr := rfl
@[simp] theorem setResults_k1 (g x y : Word) (s : State) : (setResults g x y s).k1 = s.k1 := rfl
@[simp] theorem setResults_k2 (g x y : Word) (s : State) : (setResults g x y s).k2 = s.k2 := rfl
@[simp] theorem setResults_err (g x y : Word) (s : State) : (setResults g x y s).err = s.err := rfl
@[simp] theorem setResults_keyValid (g x y : Word) (s : State) : (setResults g x y s).keyValid = s.keyValid := rfl
@[simp] theorem setResults_esticky (g x y : Word) (s : State) : (setResults g x y s).esticky = s.esticky := rfl
@[simp] theorem setResults_pending (g x y : Word) (s : State) : (setResults g x y s).pending = s.pending := rfl
@[simp] theorem setResults_responses (g x y : Word) (s : State) : (setResults g x y s).responses = s.responses := rfl

@[simp] theorem setVr_opa (xs : List Word) (s : State) : (setVr xs s).opa = s.opa := rfl
@[simp] theorem setVr_opb (xs : List Word) (s : State) : (setVr xs s).opb = s.opb := rfl
@[simp] theorem setVr_opc (xs : List Word) (s : State) : (setVr xs s).opc = s.opc := rfl
@[simp] theorem setVr_res0 (xs : List Word) (s : State) : (setVr xs s).res0 = s.res0 := rfl
@[simp] theorem setVr_res1 (xs : List Word) (s : State) : (setVr xs s).res1 = s.res1 := rfl
@[simp] theorem setVr_res2 (xs : List Word) (s : State) : (setVr xs s).res2 = s.res2 := rfl
@[simp] theorem setVr_va (xs : List Word) (s : State) : (setVr xs s).va = s.va := rfl
@[simp] theorem setVr_vb (xs : List Word) (s : State) : (setVr xs s).vb = s.vb := rfl
@[simp] theorem setVr_vr (xs : List Word) (s : State) : (setVr xs s).vr = xs := rfl
@[simp] theorem setVr_k1 (xs : List Word) (s : State) : (setVr xs s).k1 = s.k1 := rfl
@[simp] theorem setVr_k2 (xs : List Word) (s : State) : (setVr xs s).k2 = s.k2 := rfl
@[simp] theorem setVr_err (xs : List Word) (s : State) : (setVr xs s).err = s.err := rfl
@[simp] theorem setVr_keyValid (xs : List Word) (s : State) : (setVr xs s).keyValid = s.keyValid := rfl
@[simp] theorem setVr_esticky (xs : List Word) (s : State) : (setVr xs s).esticky = s.esticky := rfl
@[simp] theorem setVr_pending (xs : List Word) (s : State) : (setVr xs s).pending = s.pending := rfl
@[simp] theorem setVr_responses (xs : List Word) (s : State) : (setVr xs s).responses = s.responses := rfl

@[simp] theorem setKeys_opa (a b : BitVec 8) (s : State) : (setKeys a b s).opa = s.opa := rfl
@[simp] theorem setKeys_opb (a b : BitVec 8) (s : State) : (setKeys a b s).opb = s.opb := rfl
@[simp] theorem setKeys_opc (a b : BitVec 8) (s : State) : (setKeys a b s).opc = s.opc := rfl
@[simp] theorem setKeys_res0 (a b : BitVec 8) (s : State) : (setKeys a b s).res0 = s.res0 := rfl
@[simp] theorem setKeys_res1 (a b : BitVec 8) (s : State) : (setKeys a b s).res1 = s.res1 := rfl
@[simp] theorem setKeys_res2 (a b : BitVec 8) (s : State) : (setKeys a b s).res2 = s.res2 := rfl
@[simp] theorem setKeys_va (a b : BitVec 8) (s : State) : (setKeys a b s).va = s.va := rfl
@[simp] theorem setKeys_vb (a b : BitVec 8) (s : State) : (setKeys a b s).vb = s.vb := rfl
@[simp] theorem setKeys_vr (a b : BitVec 8) (s : State) : (setKeys a b s).vr = s.vr := rfl
@[simp] theorem setKeys_k1 (a b : BitVec 8) (s : State) : (setKeys a b s).k1 = a := rfl
@[simp] theorem setKeys_k2 (a b : BitVec 8) (s : State) : (setKeys a b s).k2 = b := rfl
@[simp] theorem setKeys_err (a b : BitVec 8) (s : State) : (setKeys a b s).err = s.err := rfl
@[simp] theorem setKeys_keyValid (a b : BitVec 8) (s : State) : (setKeys a b s).keyValid = true := rfl
@[simp] theorem setKeys_esticky (a b : BitVec 8) (s : State) : (setKeys a b s).esticky = s.esticky := rfl
@[simp] theorem setKeys_pending (a b : BitVec 8) (s : State) : (setKeys a b s).pending = s.pending := rfl
@[simp] theorem setKeys_responses (a b : BitVec 8) (s : State) : (setKeys a b s).responses = s.responses := rfl

@[simp] theorem clearErr_opa (s : State) : (clearErr s).opa = s.opa := rfl
@[simp] theorem clearErr_opb (s : State) : (clearErr s).opb = s.opb := rfl
@[simp] theorem clearErr_opc (s : State) : (clearErr s).opc = s.opc := rfl
@[simp] theorem clearErr_res0 (s : State) : (clearErr s).res0 = s.res0 := rfl
@[simp] theorem clearErr_res1 (s : State) : (clearErr s).res1 = s.res1 := rfl
@[simp] theorem clearErr_res2 (s : State) : (clearErr s).res2 = s.res2 := rfl
@[simp] theorem clearErr_va (s : State) : (clearErr s).va = s.va := rfl
@[simp] theorem clearErr_vb (s : State) : (clearErr s).vb = s.vb := rfl
@[simp] theorem clearErr_vr (s : State) : (clearErr s).vr = s.vr := rfl
@[simp] theorem clearErr_k1 (s : State) : (clearErr s).k1 = s.k1 := rfl
@[simp] theorem clearErr_k2 (s : State) : (clearErr s).k2 = s.k2 := rfl
@[simp] theorem clearErr_err (s : State) : (clearErr s).err = 0#4 := rfl
@[simp] theorem clearErr_keyValid (s : State) : (clearErr s).keyValid = s.keyValid := rfl
@[simp] theorem clearErr_esticky (s : State) : (clearErr s).esticky = s.esticky := rfl
@[simp] theorem clearErr_pending (s : State) : (clearErr s).pending = s.pending := rfl
@[simp] theorem clearErr_responses (s : State) : (clearErr s).responses = s.responses := rfl

@[simp] theorem markError_opa (e : ErrorCode) (s : State) : (markError e s).opa = s.opa := rfl
@[simp] theorem markError_opb (e : ErrorCode) (s : State) : (markError e s).opb = s.opb := rfl
@[simp] theorem markError_opc (e : ErrorCode) (s : State) : (markError e s).opc = s.opc := rfl
@[simp] theorem markError_res0 (e : ErrorCode) (s : State) : (markError e s).res0 = s.res0 := rfl
@[simp] theorem markError_res1 (e : ErrorCode) (s : State) : (markError e s).res1 = s.res1 := rfl
@[simp] theorem markError_res2 (e : ErrorCode) (s : State) : (markError e s).res2 = s.res2 := rfl
@[simp] theorem markError_va (e : ErrorCode) (s : State) : (markError e s).va = s.va := rfl
@[simp] theorem markError_vb (e : ErrorCode) (s : State) : (markError e s).vb = s.vb := rfl
@[simp] theorem markError_vr (e : ErrorCode) (s : State) : (markError e s).vr = s.vr := rfl
@[simp] theorem markError_k1 (e : ErrorCode) (s : State) : (markError e s).k1 = s.k1 := rfl
@[simp] theorem markError_k2 (e : ErrorCode) (s : State) : (markError e s).k2 = s.k2 := rfl
@[simp] theorem markError_err (e : ErrorCode) (s : State) : (markError e s).err = errorBits e := rfl
@[simp] theorem markError_keyValid (e : ErrorCode) (s : State) : (markError e s).keyValid = s.keyValid := rfl
@[simp] theorem markError_esticky (e : ErrorCode) (s : State) : (markError e s).esticky = true := rfl
@[simp] theorem markError_pending (e : ErrorCode) (s : State) : (markError e s).pending = s.pending := rfl
@[simp] theorem markError_responses (e : ErrorCode) (s : State) : (markError e s).responses = s.responses := rfl

@[simp] theorem setOpa_opa (v : Word) (s : State) : (setOpa v s).opa = v := rfl
@[simp] theorem setOpa_opb (v : Word) (s : State) : (setOpa v s).opb = s.opb := rfl
@[simp] theorem setOpa_opc (v : Word) (s : State) : (setOpa v s).opc = s.opc := rfl
@[simp] theorem setOpa_res0 (v : Word) (s : State) : (setOpa v s).res0 = s.res0 := rfl
@[simp] theorem setOpa_res1 (v : Word) (s : State) : (setOpa v s).res1 = s.res1 := rfl
@[simp] theorem setOpa_res2 (v : Word) (s : State) : (setOpa v s).res2 = s.res2 := rfl
@[simp] theorem setOpa_va (v : Word) (s : State) : (setOpa v s).va = s.va := rfl
@[simp] theorem setOpa_vb (v : Word) (s : State) : (setOpa v s).vb = s.vb := rfl
@[simp] theorem setOpa_vr (v : Word) (s : State) : (setOpa v s).vr = s.vr := rfl
@[simp] theorem setOpa_k1 (v : Word) (s : State) : (setOpa v s).k1 = s.k1 := rfl
@[simp] theorem setOpa_k2 (v : Word) (s : State) : (setOpa v s).k2 = s.k2 := rfl
@[simp] theorem setOpa_err (v : Word) (s : State) : (setOpa v s).err = s.err := rfl
@[simp] theorem setOpa_keyValid (v : Word) (s : State) : (setOpa v s).keyValid = s.keyValid := rfl
@[simp] theorem setOpa_esticky (v : Word) (s : State) : (setOpa v s).esticky = s.esticky := rfl
@[simp] theorem setOpa_pending (v : Word) (s : State) : (setOpa v s).pending = s.pending := rfl
@[simp] theorem setOpa_responses (v : Word) (s : State) : (setOpa v s).responses = s.responses := rfl

@[simp] theorem setOpb_opa (v : Word) (s : State) : (setOpb v s).opa = s.opa := rfl
@[simp] theorem setOpb_opb (v : Word) (s : State) : (setOpb v s).opb = v := rfl
@[simp] theorem setOpb_opc (v : Word) (s : State) : (setOpb v s).opc = s.opc := rfl
@[simp] theorem setOpb_res0 (v : Word) (s : State) : (setOpb v s).res0 = s.res0 := rfl
@[simp] theorem setOpb_res1 (v : Word) (s : State) : (setOpb v s).res1 = s.res1 := rfl
@[simp] theorem setOpb_res2 (v : Word) (s : State) : (setOpb v s).res2 = s.res2 := rfl
@[simp] theorem setOpb_va (v : Word) (s : State) : (setOpb v s).va = s.va := rfl
@[simp] theorem setOpb_vb (v : Word) (s : State) : (setOpb v s).vb = s.vb := rfl
@[simp] theorem setOpb_vr (v : Word) (s : State) : (setOpb v s).vr = s.vr := rfl
@[simp] theorem setOpb_k1 (v : Word) (s : State) : (setOpb v s).k1 = s.k1 := rfl
@[simp] theorem setOpb_k2 (v : Word) (s : State) : (setOpb v s).k2 = s.k2 := rfl
@[simp] theorem setOpb_err (v : Word) (s : State) : (setOpb v s).err = s.err := rfl
@[simp] theorem setOpb_keyValid (v : Word) (s : State) : (setOpb v s).keyValid = s.keyValid := rfl
@[simp] theorem setOpb_esticky (v : Word) (s : State) : (setOpb v s).esticky = s.esticky := rfl
@[simp] theorem setOpb_pending (v : Word) (s : State) : (setOpb v s).pending = s.pending := rfl
@[simp] theorem setOpb_responses (v : Word) (s : State) : (setOpb v s).responses = s.responses := rfl

@[simp] theorem setOpc_opa (v : Word) (s : State) : (setOpc v s).opa = s.opa := rfl
@[simp] theorem setOpc_opb (v : Word) (s : State) : (setOpc v s).opb = s.opb := rfl
@[simp] theorem setOpc_opc (v : Word) (s : State) : (setOpc v s).opc = v := rfl
@[simp] theorem setOpc_res0 (v : Word) (s : State) : (setOpc v s).res0 = s.res0 := rfl
@[simp] theorem setOpc_res1 (v : Word) (s : State) : (setOpc v s).res1 = s.res1 := rfl
@[simp] theorem setOpc_res2 (v : Word) (s : State) : (setOpc v s).res2 = s.res2 := rfl
@[simp] theorem setOpc_va (v : Word) (s : State) : (setOpc v s).va = s.va := rfl
@[simp] theorem setOpc_vb (v : Word) (s : State) : (setOpc v s).vb = s.vb := rfl
@[simp] theorem setOpc_vr (v : Word) (s : State) : (setOpc v s).vr = s.vr := rfl
@[simp] theorem setOpc_k1 (v : Word) (s : State) : (setOpc v s).k1 = s.k1 := rfl
@[simp] theorem setOpc_k2 (v : Word) (s : State) : (setOpc v s).k2 = s.k2 := rfl
@[simp] theorem setOpc_err (v : Word) (s : State) : (setOpc v s).err = s.err := rfl
@[simp] theorem setOpc_keyValid (v : Word) (s : State) : (setOpc v s).keyValid = s.keyValid := rfl
@[simp] theorem setOpc_esticky (v : Word) (s : State) : (setOpc v s).esticky = s.esticky := rfl
@[simp] theorem setOpc_pending (v : Word) (s : State) : (setOpc v s).pending = s.pending := rfl
@[simp] theorem setOpc_responses (v : Word) (s : State) : (setOpc v s).responses = s.responses := rfl

@[simp] theorem setVa_opa (xs : List Word) (s : State) : (setVa xs s).opa = s.opa := rfl
@[simp] theorem setVa_opb (xs : List Word) (s : State) : (setVa xs s).opb = s.opb := rfl
@[simp] theorem setVa_opc (xs : List Word) (s : State) : (setVa xs s).opc = s.opc := rfl
@[simp] theorem setVa_res0 (xs : List Word) (s : State) : (setVa xs s).res0 = s.res0 := rfl
@[simp] theorem setVa_res1 (xs : List Word) (s : State) : (setVa xs s).res1 = s.res1 := rfl
@[simp] theorem setVa_res2 (xs : List Word) (s : State) : (setVa xs s).res2 = s.res2 := rfl
@[simp] theorem setVa_va (xs : List Word) (s : State) : (setVa xs s).va = xs := rfl
@[simp] theorem setVa_vb (xs : List Word) (s : State) : (setVa xs s).vb = s.vb := rfl
@[simp] theorem setVa_vr (xs : List Word) (s : State) : (setVa xs s).vr = s.vr := rfl
@[simp] theorem setVa_k1 (xs : List Word) (s : State) : (setVa xs s).k1 = s.k1 := rfl
@[simp] theorem setVa_k2 (xs : List Word) (s : State) : (setVa xs s).k2 = s.k2 := rfl
@[simp] theorem setVa_err (xs : List Word) (s : State) : (setVa xs s).err = s.err := rfl
@[simp] theorem setVa_keyValid (xs : List Word) (s : State) : (setVa xs s).keyValid = s.keyValid := rfl
@[simp] theorem setVa_esticky (xs : List Word) (s : State) : (setVa xs s).esticky = s.esticky := rfl
@[simp] theorem setVa_pending (xs : List Word) (s : State) : (setVa xs s).pending = s.pending := rfl
@[simp] theorem setVa_responses (xs : List Word) (s : State) : (setVa xs s).responses = s.responses := rfl

@[simp] theorem setVb_opa (xs : List Word) (s : State) : (setVb xs s).opa = s.opa := rfl
@[simp] theorem setVb_opb (xs : List Word) (s : State) : (setVb xs s).opb = s.opb := rfl
@[simp] theorem setVb_opc (xs : List Word) (s : State) : (setVb xs s).opc = s.opc := rfl
@[simp] theorem setVb_res0 (xs : List Word) (s : State) : (setVb xs s).res0 = s.res0 := rfl
@[simp] theorem setVb_res1 (xs : List Word) (s : State) : (setVb xs s).res1 = s.res1 := rfl
@[simp] theorem setVb_res2 (xs : List Word) (s : State) : (setVb xs s).res2 = s.res2 := rfl
@[simp] theorem setVb_va (xs : List Word) (s : State) : (setVb xs s).va = s.va := rfl
@[simp] theorem setVb_vb (xs : List Word) (s : State) : (setVb xs s).vb = xs := rfl
@[simp] theorem setVb_vr (xs : List Word) (s : State) : (setVb xs s).vr = s.vr := rfl
@[simp] theorem setVb_k1 (xs : List Word) (s : State) : (setVb xs s).k1 = s.k1 := rfl
@[simp] theorem setVb_k2 (xs : List Word) (s : State) : (setVb xs s).k2 = s.k2 := rfl
@[simp] theorem setVb_err (xs : List Word) (s : State) : (setVb xs s).err = s.err := rfl
@[simp] theorem setVb_keyValid (xs : List Word) (s : State) : (setVb xs s).keyValid = s.keyValid := rfl
@[simp] theorem setVb_esticky (xs : List Word) (s : State) : (setVb xs s).esticky = s.esticky := rfl
@[simp] theorem setVb_pending (xs : List Word) (s : State) : (setVb xs s).pending = s.pending := rfl
@[simp] theorem setVb_responses (xs : List Word) (s : State) : (setVb xs s).responses = s.responses := rfl

@[simp] theorem setPending_opa (es : List HostEvent) (s : State) : (setPending es s).opa = s.opa := rfl
@[simp] theorem setPending_opb (es : List HostEvent) (s : State) : (setPending es s).opb = s.opb := rfl
@[simp] theorem setPending_opc (es : List HostEvent) (s : State) : (setPending es s).opc = s.opc := rfl
@[simp] theorem setPending_res0 (es : List HostEvent) (s : State) : (setPending es s).res0 = s.res0 := rfl
@[simp] theorem setPending_res1 (es : List HostEvent) (s : State) : (setPending es s).res1 = s.res1 := rfl
@[simp] theorem setPending_res2 (es : List HostEvent) (s : State) : (setPending es s).res2 = s.res2 := rfl
@[simp] theorem setPending_va (es : List HostEvent) (s : State) : (setPending es s).va = s.va := rfl
@[simp] theorem setPending_vb (es : List HostEvent) (s : State) : (setPending es s).vb = s.vb := rfl
@[simp] theorem setPending_vr (es : List HostEvent) (s : State) : (setPending es s).vr = s.vr := rfl
@[simp] theorem setPending_k1 (es : List HostEvent) (s : State) : (setPending es s).k1 = s.k1 := rfl
@[simp] theorem setPending_k2 (es : List HostEvent) (s : State) : (setPending es s).k2 = s.k2 := rfl
@[simp] theorem setPending_err (es : List HostEvent) (s : State) : (setPending es s).err = s.err := rfl
@[simp] theorem setPending_keyValid (es : List HostEvent) (s : State) : (setPending es s).keyValid = s.keyValid := rfl
@[simp] theorem setPending_esticky (es : List HostEvent) (s : State) : (setPending es s).esticky = s.esticky := rfl
@[simp] theorem setPending_pending (es : List HostEvent) (s : State) : (setPending es s).pending = es := rfl
@[simp] theorem setPending_responses (es : List HostEvent) (s : State) : (setPending es s).responses = s.responses := rfl

@[simp] theorem respond_opa (r : Response) (s : State) : (respond r s).opa = s.opa := rfl
@[simp] theorem respond_opb (r : Response) (s : State) : (respond r s).opb = s.opb := rfl
@[simp] theorem respond_opc (r : Response) (s : State) : (respond r s).opc = s.opc := rfl
@[simp] theorem respond_res0 (r : Response) (s : State) : (respond r s).res0 = s.res0 := rfl
@[simp] theorem respond_res1 (r : Response) (s : State) : (respond r s).res1 = s.res1 := rfl
@[simp] theorem respond_res2 (r : Response) (s : State) : (respond r s).res2 = s.res2 := rfl
@[simp] theorem respond_va (r : Response) (s : State) : (respond r s).va = s.va := rfl
@[simp] theorem respond_vb (r : Response) (s : State) : (respond r s).vb = s.vb := rfl
@[simp] theorem respond_vr (r : Response) (s : State) : (respond r s).vr = s.vr := rfl
@[simp] theorem respond_k1 (r : Response) (s : State) : (respond r s).k1 = s.k1 := rfl
@[simp] theorem respond_k2 (r : Response) (s : State) : (respond r s).k2 = s.k2 := rfl
@[simp] theorem respond_err (r : Response) (s : State) : (respond r s).err = s.err := rfl
@[simp] theorem respond_keyValid (r : Response) (s : State) : (respond r s).keyValid = s.keyValid := rfl
@[simp] theorem respond_esticky (r : Response) (s : State) : (respond r s).esticky = s.esticky := rfl
@[simp] theorem respond_pending (r : Response) (s : State) : (respond r s).pending = s.pending := rfl
@[simp] theorem respond_responses (r : Response) (s : State) : (respond r s).responses = s.responses ++ [r] := rfl

@[simp] theorem resetCore_opa (s : State) : (resetCore s).opa = State.reset.opa := rfl
@[simp] theorem resetCore_opb (s : State) : (resetCore s).opb = State.reset.opb := rfl
@[simp] theorem resetCore_opc (s : State) : (resetCore s).opc = State.reset.opc := rfl
@[simp] theorem resetCore_res0 (s : State) : (resetCore s).res0 = State.reset.res0 := rfl
@[simp] theorem resetCore_res1 (s : State) : (resetCore s).res1 = State.reset.res1 := rfl
@[simp] theorem resetCore_res2 (s : State) : (resetCore s).res2 = State.reset.res2 := rfl
@[simp] theorem resetCore_va (s : State) : (resetCore s).va = State.reset.va := rfl
@[simp] theorem resetCore_vb (s : State) : (resetCore s).vb = State.reset.vb := rfl
@[simp] theorem resetCore_vr (s : State) : (resetCore s).vr = State.reset.vr := rfl
@[simp] theorem resetCore_k1 (s : State) : (resetCore s).k1 = State.reset.k1 := rfl
@[simp] theorem resetCore_k2 (s : State) : (resetCore s).k2 = State.reset.k2 := rfl
@[simp] theorem resetCore_err (s : State) : (resetCore s).err = State.reset.err := rfl
@[simp] theorem resetCore_keyValid (s : State) : (resetCore s).keyValid = State.reset.keyValid := rfl
@[simp] theorem resetCore_esticky (s : State) : (resetCore s).esticky = State.reset.esticky := rfl
@[simp] theorem resetCore_pending (s : State) : (resetCore s).pending = s.pending := rfl
@[simp] theorem resetCore_responses (s : State) : (resetCore s).responses = s.responses := rfl

@[simp] theorem reset_opa : State.reset.opa = 0 := rfl
@[simp] theorem reset_opb : State.reset.opb = 0 := rfl
@[simp] theorem reset_opc : State.reset.opc = 0 := rfl
@[simp] theorem reset_res0 : State.reset.res0 = 0 := rfl
@[simp] theorem reset_res1 : State.reset.res1 = 0 := rfl
@[simp] theorem reset_res2 : State.reset.res2 = 0 := rfl
@[simp] theorem reset_va : State.reset.va = [] := rfl
@[simp] theorem reset_vb : State.reset.vb = [] := rfl
@[simp] theorem reset_vr : State.reset.vr = [] := rfl
@[simp] theorem reset_k1 : State.reset.k1 = 0 := rfl
@[simp] theorem reset_k2 : State.reset.k2 = 0 := rfl
@[simp] theorem reset_err : State.reset.err = 0 := rfl
@[simp] theorem reset_keyValid : State.reset.keyValid = false := rfl
@[simp] theorem reset_esticky : State.reset.esticky = false := rfl
@[simp] theorem reset_pending : State.reset.pending = [] := rfl
@[simp] theorem reset_responses : State.reset.responses = [] := rfl

end Sys2Proof.Machine
end

