-- ==== Sys2Proof/Laws/Ops.lean ====
section
/-!
SUPPORT. What the shared operations can do: the two ends of a command, the error codes, resizing, the
register map, the host's reads and the forms a write can take, packing and slices.
-/
namespace Sys2Proof.Machine

theorem succeed_eq (commit : State → State) (s : State) :
    succeed commit s = .next (clearErr (commit s)) := rfl

theorem raise_eq (e : ErrorCode) (s : State) : raise e s = .next (markError e s) := rfl

theorem errorBits_ne_zero (e : ErrorCode) : errorBits e ≠ 0#4 := by cases e <;> decide

theorem errorBits_le_five (e : ErrorCode) : (errorBits e).toNat ≤ 5 := by cases e <;> decide

theorem errorBits_injective {e f : ErrorCode} (h : errorBits e = errorBits f) : e = f := by
  cases e <;> cases f <;> first | rfl | exact absurd h (by decide)

/-- Every register's value is in `int_W`. -/
theorem fitsWord_toInt (w : Word) : fitsWord w.toInt = true := by
  have h1 := @BitVec.toInt_lt 32 w
  have h2 := @BitVec.le_toInt 32 w
  norm_num at h1 h2
  simp [fitsWord]
  omega

theorem fitsWord_iff (v : Int) : fitsWord v = true ↔ -2147483648 ≤ v ∧ v ≤ 2147483647 := by
  simp [fitsWord]

/-- A value of `int_W` is what its register reads as (R54). -/
theorem toInt_bitsW {v : Int} (h : fitsWord v = true) : (bitsW v).toInt = v := by
  rw [fitsWord_iff] at h
  rw [BitVec.toInt_ofInt, Int.bmod_eq_of_le] <;> omega

theorem resize_length (s : List Word) (n : Nat) : (resize s n).length = n := by
  unfold resize
  split <;> simp <;> omega

/-- Elements of a resized sequence (R30): kept up to the old length, 0 beyond it. -/
theorem resize_getElem? (s : List Word) (n i : Nat) :
    (resize s n)[i]? = if i < n then some (s.getD i 0#32) else none := by
  by_cases hi : i < n
  · unfold resize
    split
    · rename_i h
      have : i < s.length := by omega
      simp [hi, this]
    · by_cases hs : i < s.length
      · simp [List.getElem?_append_left, hs]
      · have hs : s.length ≤ i := by omega
        have hr : i - s.length < n - s.length := by omega
        simp [List.getElem?_append_right, hs, hr]
  · rw [if_neg hi, List.getElem?_eq_none]
    rw [resize_length]
    omega

/-- Every named register has its own address (R50). -/
theorem portOf_addressOf (p : Port) : portOf (addressOf p) = some p := by
  cases p with
  | va i => revert i; decide
  | vb i => revert i; decide
  | vr i => revert i; decide
  | _ => rfl

/-- An address names at most the register that has it (R50, R36). -/
theorem addressOf_of_portOf {a : Nat} {p : Port} (h : portOf a = some p) : a = addressOf p := by
  unfold portOf at h
  split at h
  · unfold scalarPortOf at h
    split at h <;> cases h <;> rfl
  · split at h
    · cases h
      simp only [addressOf]
      omega
    · split at h
      · cases h
        simp only [addressOf]
        omega
      · split at h
        · cases h
          simp only [addressOf]
          omega
        · cases h

/-- What a register's read depends on: two states alike in it read alike. -/
def SameAt (s t : State) : Port → Prop
  | .cmd => True
  | .status => statusWord t = statusWord s
  | .opa => t.opa = s.opa
  | .opb => t.opb = s.opb
  | .opc => t.opc = s.opc
  | .res0 => t.res0 = s.res0
  | .res1 => t.res1 = s.res1
  | .res2 => t.res2 = s.res2
  | .k1 => t.k1 = s.k1
  | .k2 => t.k2 = s.k2
  | .vaLen => t.va.length = s.va.length
  | .vbLen => t.vb.length = s.vb.length
  | .vrLen => t.vr.length = s.vr.length
  | .va i => t.va[i.val]? = s.va[i.val]?
  | .vb i => t.vb[i.val]? = s.vb[i.val]?
  | .vr i => t.vr[i.val]? = s.vr[i.val]?

/-- Reads frame: an address reads alike in two states alike in the register it names. -/
theorem hostRead_congr {s t : State} {a : Nat} (h : ∀ p, a = addressOf p → SameAt s t p) :
    hostRead a t = hostRead a s := by
  unfold hostRead
  rcases hp : portOf a with _ | p
  · rfl
  · have := h p (addressOf_of_portOf hp)
    cases p <;> simp_all [readElement, SameAt]

theorem readElement_ok {a : Nat} {xs : List Word} {i : Nat} {w : Word} :
    readElement a xs i = .ok w ↔ xs[i]? = some w := by
  unfold readElement
  cases xs[i]? <;> simp

theorem readElement_error {a : Nat} {xs : List Word} {i : Nat} {r : Refusal} :
    readElement a xs i = .error r ↔ xs.length ≤ i ∧ r = .elementBeyondLength a := by
  unfold readElement
  rcases h : xs[i]? with _ | w
  · rw [List.getElem?_eq_none_iff] at h
    simp [h, eq_comm]
  · obtain ⟨hi, -⟩ := List.getElem?_eq_some_iff.1 h
    simp
    omega

theorem writtenLength_ok {xs ys : List Word} {d : Word} (h : writtenLength xs d = .ok ys) :
    0 ≤ d.toInt ∧ d.toInt ≤ 16 ∧ ys = resize xs d.toInt.toNat := by
  unfold writtenLength at h
  split at h
  · rename_i hd
    cases h
    exact ⟨hd.1, hd.2, rfl⟩
  · cases h

theorem writtenElement_ok {a i : Nat} {xs ys : List Word} {d : Word}
    (h : writtenElement a xs i d = .ok ys) : i < xs.length ∧ ys = xs.set i d := by
  unfold writtenElement at h
  split at h
  · cases h
    exact ⟨‹_›, rfl⟩
  · cases h

theorem writeIfAdmitted_next {new : Except Refusal (List Word)} {store : List Word → State → State}
    {s t : State} (h : writeIfAdmitted new store s = .next t) :
    ∃ xs, new = .ok xs ∧ t = store xs s := by
  unfold writeIfAdmitted at h
  split at h
  · cases h
    exact ⟨_, rfl, rfl⟩
  · cases h

theorem slice_length (s : List Word) (i j : Nat) : (slice s i j).length = min (j - i) (s.length - i) := by
  simp [slice]

theorem isBits_iff (s : List Word) : isBits s = true ↔ ∀ e ∈ s, e = 0#32 ∨ e = 1#32 := by
  simp [isBits]

theorem validBits_iff (s : List Word) (n : Nat) :
    validBits s n = true ↔ s.length = n ∧ isBits s = true := by
  simp [validBits]

theorem isBits_append (a b : List Word) : isBits (a ++ b) = (isBits a && isBits b) := by
  simp [isBits]

theorem entriesInRange_iff (t : List Int) (n : Nat) :
    entriesInRange t n = true ↔ ∀ e ∈ t, 1 ≤ e ∧ e ≤ n := by
  simp [entriesInRange]

theorem unpack_length (n v : Nat) : (unpack n v).length = n := by simp [unpack]

/-- Unpacking yields a bit sequence (R12). -/
theorem isBits_unpack (n v : Nat) : isBits (unpack n v) = true := by
  rw [isBits_iff]
  intro e he
  simp only [unpack, List.mem_map] at he
  obtain ⟨i, -, rfl⟩ := he
  rcases Nat.mod_two_eq_zero_or_one (v / 2 ^ (n - 1 - i)) with h | h <;> simp [h]

/-- A subkey register always holds eight bits (R31). -/
theorem subkeySeq_validBits (k : BitVec 8) : validBits (subkeySeq k) 8 = true := by
  simp [validBits_iff, subkeySeq, unpack_length, isBits_unpack]

end Sys2Proof.Machine
end

