-- ==== Sys2Proof/Laws/BitVector.lean ====
section
/-!
SUPPORT. The bit-vector functions element by element (R110, R112, R114) and what they keep.
-/
namespace Sys2Proof.Machine

@[simp] theorem permute_length (s : List Word) (t : List Nat) : (permute s t).length = t.length := by
  simp [permute]

theorem permute_append (s : List Word) (t u : List Nat) :
    permute s (t ++ u) = permute s t ++ permute s u := by
  simp [permute]

/-- R110: `r[i] = s[t[i] - 1]`. -/
theorem permute_getElem? (s : List Word) (t : List Nat) (i : Nat) :
    (permute s t)[i]? = t[i]?.map fun p => s.getD (p - 1) 0#32 := by
  simp [permute]

theorem isBits_permute {s : List Word} (t : List Nat) (h : isBits s = true) :
    isBits (permute s t) = true := by
  rw [isBits_iff] at h ⊢
  intro e he
  simp only [permute, List.mem_map] at he
  obtain ⟨p, -, rfl⟩ := he
  rw [List.getD_eq_getElem?_getD]
  rcases hp : s[p - 1]? with _ | w
  · simp
  · simpa using h w (List.mem_of_getElem? hp)

@[simp] theorem rotl_length (s : List Word) (d : Nat) : (rotl s d).length = s.length := by
  simp [rotl]
  omega

/-- `rotl` is the library's rotation. -/
theorem rotl_eq_rotate (s : List Word) (d : Nat) : rotl s d = s.rotate d := by
  rcases s with _ | ⟨x, xs⟩
  · simp [rotl]
  · rw [List.rotate_eq_drop_append_take_mod]
    rfl

/-- R112: `r[i] = s[(i + d) mod n]`. -/
theorem rotl_getElem? (s : List Word) (d i : Nat) (hi : i < s.length) :
    (rotl s d)[i]? = s[(i + d) % s.length]? := by
  rw [rotl_eq_rotate, List.getElem?_rotate hi]

theorem isBits_rotl {s : List Word} (d : Nat) (h : isBits s = true) : isBits (rotl s d) = true := by
  rw [isBits_iff] at h ⊢
  intro e he
  rw [rotl_eq_rotate, List.mem_rotate] at he
  exact h e he

theorem vxor_length (a b : List Word) : (vxor a b).length = min a.length b.length := by
  simp [vxor]

/-- R114: `r[i] = a[i] XOR b[i]`. -/
theorem vxor_getElem? (a b : List Word) (i : Nat) (ha : i < a.length) (hb : i < b.length) :
    (vxor a b)[i]? = some (a[i] ^^^ b[i]) := by
  simp [vxor, ha, hb]

theorem isBits_vxor {a b : List Word} (ha : isBits a = true) (hb : isBits b = true) :
    isBits (vxor a b) = true := by
  induction a generalizing b with
  | nil => simp [vxor, isBits]
  | cons x xs ih =>
    cases b with
    | nil => simp [vxor, isBits]
    | cons y ys =>
      simp only [isBits, List.all_cons, Bool.and_eq_true, Bool.or_eq_true, beq_iff_eq] at ha hb ih
      have hrest := ih ha.2 hb.2
      simp only [vxor] at hrest
      simp only [isBits, vxor, List.zipWith_cons_cons, List.all_cons, Bool.and_eq_true,
        Bool.or_eq_true, beq_iff_eq]
      refine ⟨?_, hrest⟩
      rcases ha.1 with rfl | rfl <;> rcases hb.1 with rfl | rfl <;> decide

end Sys2Proof.Machine
end

