-- ==== Sys2Proof/Laws/Numeric.lean ====
section
/-!
SUPPORT. The numeric functions are those of 40_numeric.md: square-and-multiply computes the power of
R92, and `eea` satisfies the two equations of R94.
-/
namespace Sys2Proof.Machine

theorem powModFuel_eq (m fuel b e : Nat) (h : e < 2 ^ fuel) :
    powModFuel m fuel b e = b ^ e % m := by
  induction fuel generalizing b e with
  | zero =>
    have : e = 0 := by simpa using h
    simp [powModFuel, this]
  | succ fuel ih =>
    unfold powModFuel
    split
    · rename_i h0
      simp [h0]
    · have hhalf : e / 2 < 2 ^ fuel := by rw [pow_succ] at h; omega
      have hsq : (b * b % m) ^ (e / 2) % m = b ^ (2 * (e / 2)) % m := by
        rw [← Nat.pow_mod, ← pow_two, ← pow_mul]
      simp only [ih _ _ hhalf, hsq]
      split
      · rename_i hodd
        rw [Nat.mul_mod, Nat.mod_mod, ← Nat.mul_mod, ← pow_succ']
        congr 2
        omega
      · congr 2
        omega

/-- R92: the engine's value is the exact power reduced. -/
theorem modexp_eq_modulo_pow (base exponent modulus : Int) (hm : 1 ≤ modulus) :
    modexp base exponent modulus = modulo (base ^ exponent.toNat) modulus := by
  have hb : 0 ≤ base % modulus := Int.emod_nonneg _ (by omega)
  unfold modexp modulo
  rw [powModFuel_eq _ _ _ _ Nat.lt_two_pow_self]
  push_cast
  rw [Int.toNat_of_nonneg hb, Int.toNat_of_nonneg (by omega : (0 : Int) ≤ modulus)]
  exact (Int.mod_modEq base modulus).pow exponent.toNat

theorem eeaFuel_stable {f f' a b : Nat} (h : b < f) (h' : b < f') :
    eeaFuel f a b = eeaFuel f' a b := by
  induction f generalizing f' a b with
  | zero => omega
  | succ f ih =>
    cases f' with
    | zero => omega
    | succ f' =>
      unfold eeaFuel
      split
      · rfl
      · have hlt : a % b < b := Nat.mod_lt _ (by omega)
        rw [ih (f' := f') (a := b) (b := a % b) (by omega) (by omega)]

/-- R94, the base case. -/
theorem eea_zero (a : Nat) : eea a 0 = (a, 1, 0) := rfl

/-- R94, the recursion on `(b, a mod b)`. -/
theorem eea_step (a b : Nat) (hb : 1 ≤ b) :
    eea a b = ((eea b (a % b)).1, (eea b (a % b)).2.2,
      (eea b (a % b)).2.1 - (a / b : Nat) * (eea b (a % b)).2.2) := by
  have hlt : a % b < b := Nat.mod_lt _ (by omega)
  have hf : eeaFuel b b (a % b) = eea b (a % b) := eeaFuel_stable hlt (by omega)
  conv_lhs => unfold eea eeaFuel
  rw [if_neg (by omega), hf]

/-- A property of the triple that holds at R94's base case and is kept by its step holds always. -/
theorem eea_induction (P : Nat → Nat → Nat × Int × Int → Prop) (base : ∀ a, P a 0 (a, 1, 0))
    (more : ∀ a b g x y, 1 ≤ b → P b (a % b) (g, x, y) → P a b (g, y, x - (a / b : Nat) * y)) :
    ∀ b a, P a b (eea a b) := by
  intro b
  induction b using Nat.strong_induction_on with
  | _ b ih =>
    intro a
    rcases Nat.eq_zero_or_pos b with rfl | hb
    · exact base a
    · rw [eea_step a b hb]
      exact more a b _ _ _ hb (ih (a % b) (Nat.mod_lt _ hb) b)

/-- A remainder by a register's value fits a register (R91, R98). -/
theorem fitsWord_modulo (v : Int) {w : Word} (h : 1 ≤ w.toInt) :
    fitsWord (modulo v w.toInt) = true := by
  have h1 := Int.emod_nonneg v (by omega : w.toInt ≠ 0)
  have h2 := Int.emod_lt_of_pos v (by omega : 0 < w.toInt)
  have h3 := (fitsWord_iff _).1 (fitsWord_toInt w)
  rw [fitsWord_iff]
  unfold modulo
  omega

end Sys2Proof.Machine
end

