-- ==== Sys2Proof/Laws/Sdes.lean ====
section
/-!
SUPPORT. The S-DES functions deliver bit sequences of the stated lengths (R131, R134, R136), and packing
a sequence of eight bits into a subkey register loses nothing (R12, R31).
-/
namespace Sys2Proof.Machine

theorem isBits_slice {s : List Word} (i j : Nat) (h : isBits s = true) :
    isBits (slice s i j) = true := by
  rw [isBits_iff] at h ⊢
  exact fun e he => h e (List.mem_of_mem_drop (List.mem_of_mem_take he))

theorem sdesKeys_length (T : Config.Tables) (k : List Word) :
    (sdesKeys T k).1.length = T.p8.length ∧ (sdesKeys T k).2.length = T.p8.length := by
  simp [sdesKeys]

theorem isBits_sdesKeys (T : Config.Tables) {k : List Word} (h : isBits k = true) :
    isBits (sdesKeys T k).1 = true ∧ isBits (sdesKeys T k).2 = true := by
  simp only [sdesKeys]
  have half : ∀ i j, isBits (rotl (slice (permute k T.p10) i j) 1) = true := fun i j =>
    isBits_rotl 1 (isBits_slice i j (isBits_permute _ h))
  constructor <;> refine isBits_permute _ ?_ <;> rw [isBits_append, Bool.and_eq_true]
  · exact ⟨half 0 5, half 5 10⟩
  · exact ⟨isBits_rotl 2 (half 0 5), isBits_rotl 2 (half 5 10)⟩

@[simp] theorem sdesF_length (T : Config.Tables) (r k : List Word) :
    (sdesF T r k).length = T.p4.length := by
  simp [sdesF]

theorem sdesBlock_length (T : Config.Tables) (b ka kb : List Word) :
    (sdesBlock T b ka kb).length = T.ipinv.length := by
  simp [sdesBlock]

/-- Two bits from an entry 0 to 3 (R133). -/
theorem isBits_sbox {S : List (List Nat)} (h : List Word)
    (hS : ∀ row ∈ S, ∀ e ∈ row, e ≤ 3) : isBits (sbox S h) = true := by
  have hv : (S.getD (2 * bitAt h 0 + bitAt h 3) []).getD (2 * bitAt h 1 + bitAt h 2) 0 ≤ 3 := by
    simp only [List.getD_eq_getElem?_getD]
    rcases hr : S[2 * bitAt h 0 + bitAt h 3]? with _ | row
    · simp
    · rcases he : row[2 * bitAt h 1 + bitAt h 2]? with _ | e
      · simp [he]
      · simpa [he] using hS row (List.mem_of_getElem? hr) e (List.mem_of_getElem? he)
  simp only [sbox]
  generalize (S.getD _ []).getD _ 0 = v at hv ⊢
  revert v
  decide

/-- A sequence of eight bits survives the subkey register (R31). -/
theorem subkeySeq_packSubkey {s : List Word} (h : validBits s 8 = true) :
    subkeySeq (packSubkey s) = s := by
  rw [validBits_iff] at h
  obtain ⟨hl, hb⟩ := h
  obtain ⟨a, b, c, d, e, f, g, i, rfl⟩ : ∃ a b c d e f g i, s = [a, b, c, d, e, f, g, i] := by
    rcases s with _ | ⟨a, _ | ⟨b, _ | ⟨c, _ | ⟨d, _ | ⟨e, _ | ⟨f, _ | ⟨g, _ | ⟨i, _ | ⟨j, t⟩⟩⟩⟩⟩⟩⟩⟩⟩
    all_goals simp at hl
    exact ⟨a, b, c, d, e, f, g, i, rfl⟩
  simp only [isBits_iff, List.forall_mem_cons] at hb
  obtain ⟨ha, hb, hc, hd, he, hf, hg, hi, -⟩ := hb
  rcases ha with rfl | rfl <;> rcases hb with rfl | rfl <;> rcases hc with rfl | rfl <;>
    rcases hd with rfl | rfl <;> rcases he with rfl | rfl <;> rcases hf with rfl | rfl <;>
    rcases hg with rfl | rfl <;> rcases hi with rfl | rfl <;> rfl

end Sys2Proof.Machine
end

