-- ==== Sys2Proof/Laws/Exec.lean ====
section
/-!
SUPPORT. What a command can do, said once (R82, R171): it raises, or it writes the destinations its rule
names and clears `ERR`.
-/
namespace Sys2Proof.Machine

/-- What a command writes on success, before `ERR` is cleared. -/
inductive Commits (s : State) : Instr → State → Prop where
  | nop : Commits s .nop s
  | res0 (i : Instr) (v : Word) (hi : i ∈ [Instr.mod, .modexp, .modinv, .visbit]) :
      Commits s i (setRes0 v s)
  | results (g x y : Word) : Commits s .eea (setResults g x y s)
  | vr (i : Instr) (xs : List Word)
      (hi : (∃ t, i = .vperm t) ∨ i ∈ [Instr.vrotl, .vxor, .sdenc, .sddec])
      (hlen : xs.length ≤ max (max s.va.length s.vb.length) 10) : Commits s i (setVr xs s)
  | keys (hv : validBits s.va Config.keyLen = true) :
      Commits s .sdkey (setKeys (packSubkey (sdesKeys defaultTables s.va).1)
        (packSubkey (sdesKeys defaultTables s.va).2) s)

theorem selectedTable_length (t : TableSel) (s : State) :
    (selectedTable defaultTables t s).length ≤ max s.vb.length 10 := by
  cases t <;> simp [selectedTable, defaultTables]

/-- Every command ends in a next state: a raise, or its commit with `ERR` cleared. -/
theorem exec_cases (i : Instr) (s : State) :
    (∃ e, exec i s = .next (markError e s)) ∨ ∃ c, Commits s i c ∧ exec i s = .next (clearErr c) := by
  cases i with
  | nop => exact .inr ⟨_, .nop, rfl⟩
  | mod =>
    simp only [exec, execMod]
    split
    · exact .inl ⟨_, rfl⟩
    · exact .inr ⟨_, .res0 _ _ (by simp), rfl⟩
  | modexp =>
    simp only [exec, execModexp]
    split
    · exact .inl ⟨_, rfl⟩
    · split
      · exact .inl ⟨_, rfl⟩
      · exact .inr ⟨_, .res0 _ _ (by simp), rfl⟩
  | eea =>
    simp only [exec, execEea]
    split
    · exact .inl ⟨_, rfl⟩
    · split
      · exact .inr ⟨_, .results _ _ _, rfl⟩
      · exact .inl ⟨_, rfl⟩
  | modinv =>
    simp only [exec, execModinv]
    split
    · exact .inl ⟨_, rfl⟩
    · split
      · exact .inl ⟨_, rfl⟩
      · exact .inr ⟨_, .res0 _ _ (by simp), rfl⟩
  | vperm t =>
    simp only [exec, execVperm]
    split
    · refine .inr ⟨_, .vr _ _ (.inl ⟨t, rfl⟩) ?_, rfl⟩
      have := selectedTable_length t s
      simp
      omega
    · exact .inl ⟨_, rfl⟩
  | vrotl =>
    simp only [exec, execVrotl]
    split
    · exact .inl ⟨_, rfl⟩
    · exact .inr ⟨_, .vr _ _ (.inr (by simp)) (by simp), rfl⟩
  | vxor =>
    simp only [exec, execVxor]
    split
    · exact .inl ⟨_, rfl⟩
    · exact .inr ⟨_, .vr _ _ (.inr (by simp)) (by simp [vxor_length]), rfl⟩
  | visbit => exact .inr ⟨_, .res0 _ _ (by simp), rfl⟩
  | sdkey =>
    simp only [exec, execSdkey]
    split
    · exact .inr ⟨_, .keys ‹_›, rfl⟩
    · exact .inl ⟨_, rfl⟩
  | sdenc =>
    simp only [exec, execSdenc]
    split
    · exact .inl ⟨_, rfl⟩
    · split
      · exact .inr ⟨_, .vr _ _ (.inr (by simp)) (by simp [sdesBlock_length, defaultTables]), rfl⟩
      · exact .inl ⟨_, rfl⟩
  | sddec =>
    simp only [exec, execSddec]
    split
    · exact .inl ⟨_, rfl⟩
    · split
      · exact .inr ⟨_, .vr _ _ (.inr (by simp)) (by simp [sdesBlock_length, defaultTables]), rfl⟩
      · exact .inl ⟨_, rfl⟩

/-- `exec_cases` for a command known to have answered `t`. -/
theorem exec_next {i : Instr} {s t : State} (h : exec i s = .next t) :
    (∃ e, t = markError e s) ∨ ∃ c, Commits s i c ∧ t = clearErr c := by
  rcases exec_cases i s with ⟨e, he⟩ | ⟨c, hc, he⟩ <;> rw [h] at he <;> cases he
  · exact .inl ⟨e, rfl⟩
  · exact .inr ⟨c, hc, rfl⟩

end Sys2Proof.Machine
end

