-- ==== Sys2Proof/Laws/Host.lean ====
section
/-!
SUPPORT. What a step can do, said once (R51, R52, R60, R190): nothing pending, a reset, a read, a write to
a register, or a command word.
-/
namespace Sys2Proof.Machine

/-- An admitted write to a register other than `CMD` (R52). -/
inductive RegWrite (s : State) : State → Prop where
  | opa (v : Word) : RegWrite s (setOpa v s)
  | opb (v : Word) : RegWrite s (setOpb v s)
  | opc (v : Word) : RegWrite s (setOpc v s)
  | vaLen (n : Nat) (hn : n ≤ 16) : RegWrite s (setVa (resize s.va n) s)
  | vbLen (n : Nat) (hn : n ≤ 16) : RegWrite s (setVb (resize s.vb n) s)
  | vaElement (i : Nat) (d : Word) (hi : i < s.va.length) : RegWrite s (setVa (s.va.set i d) s)
  | vbElement (i : Nat) (d : Word) (hi : i < s.vb.length) : RegWrite s (setVb (s.vb.set i d) s)

/-- What an admitted write does: it executes a command, or it is one of `RegWrite`. -/
theorem hostWrite_next {a : Nat} {d : Word} {s t : State} (h : hostWrite a d s = .next t) :
    (a = 0 ∧ executeWord d s = .next t) ∨ RegWrite s t := by
  unfold hostWrite at h
  split at h
  · cases h
  · exact .inl ⟨addressOf_of_portOf ‹_›, h⟩
  · cases h
    exact .inr (.opa d)
  · cases h
    exact .inr (.opb d)
  · cases h
    exact .inr (.opc d)
  · obtain ⟨xs, hx, rfl⟩ := writeIfAdmitted_next h
    obtain ⟨h0, h16, rfl⟩ := writtenLength_ok hx
    exact .inr (.vaLen _ (by omega))
  · obtain ⟨xs, hx, rfl⟩ := writeIfAdmitted_next h
    obtain ⟨h0, h16, rfl⟩ := writtenLength_ok hx
    exact .inr (.vbLen _ (by omega))
  · obtain ⟨xs, hx, rfl⟩ := writeIfAdmitted_next h
    obtain ⟨hi, rfl⟩ := writtenElement_ok hx
    exact .inr (.vaElement _ _ hi)
  · obtain ⟨xs, hx, rfl⟩ := writeIfAdmitted_next h
    obtain ⟨hi, rfl⟩ := writtenElement_ok hx
    exact .inr (.vbElement _ _ hi)
  all_goals cases h

/-- What a command word does: a raise, or the commit of the command it decodes to. -/
theorem executeWord_cases (w : Word) (s : State) :
    (∃ e, executeWord w s = .next (markError e s)) ∨
      ∃ i c, decode w = .ok i ∧ Commits s i c ∧ executeWord w s = .next (clearErr c) := by
  unfold executeWord
  split
  · rename_i i hi
    rcases exec_cases i s with ⟨e, he⟩ | ⟨c, hc, he⟩
    · exact .inl ⟨e, he⟩
    · exact .inr ⟨i, c, hi, hc, he⟩
  · exact .inl ⟨_, rfl⟩

theorem answered_next {r : Response} {o : Host.Outcome State Fault Refusal} {t : State}
    (h : answered r o = .next t) : ∃ u, o = .next u ∧ t = respond r u := by
  unfold answered at h
  split at h
  · cases h
    exact ⟨_, rfl, rfl⟩
  · cases h
  · cases h

/-- What one event of the host can do. -/
theorem hostEvent_next {e : HostEvent} {s t : State} (h : hostEvent e s = .next t) :
    (e = .reset ∧ t = resetCore s) ∨
      (∃ a w, e = .read a ∧ hostRead a s = .ok w ∧ t = respond (.data w) s) ∨
      ∃ a d u, e = .write a d ∧ hostWrite a d s = .next u ∧ t = respond .written u := by
  cases e with
  | reset =>
    cases h
    exact .inl ⟨rfl, rfl⟩
  | read a =>
    simp only [hostEvent] at h
    split at h
    · cases h
      exact .inr (.inl ⟨a, _, rfl, ‹_›, rfl⟩)
    · cases h
  | write a d =>
    obtain ⟨u, hu, rfl⟩ := answered_next h
    exact .inr (.inr ⟨a, d, u, rfl, hu, rfl⟩)

/-- What one step can do. -/
theorem step_next {s t : State} (h : step s = .next t) :
    (s.pending = [] ∧ t = s) ∨
      ∃ e rest, s.pending = e :: rest ∧ hostEvent e (setPending rest s) = .next t := by
  unfold step stepHost at h
  split at h
  · cases h
    exact .inl ⟨‹_›, rfl⟩
  · exact .inr ⟨_, _, ‹_›, h⟩

end Sys2Proof.Machine
end

