-- ==== Sys2Proof/Laws/PerInstr.lean ====
section
/-!
SUPPORT. Per-instruction facts about commands as syntax (R70, R73): a command's word has no reserved bit
set, fits the low twelve bits, and its opcode field is the command's opcode.
-/
namespace Sys2Proof.Laws.EncodeFields

/-- The three fields of a command's word are the ones R70 and R73 give it. -/
def Statement (i : Instr) : Prop :=
  i.wellFormed = true ∧ fieldRsv (encode i) = 0#20 ∧ fieldTsel (encode i) = instrTsel i ∧
    fieldOp (encode i) = opBits i

theorem nop : Statement .nop := by unfold Statement; decide

theorem mod : Statement .mod := by unfold Statement; decide

theorem modexp : Statement .modexp := by unfold Statement; decide

theorem eea : Statement .eea := by unfold Statement; decide

theorem modinv : Statement .modinv := by unfold Statement; decide

theorem vperm (t : TableSel) : Statement (.vperm t) := by
  cases t <;> (unfold Statement; decide)

theorem vrotl : Statement .vrotl := by unfold Statement; decide

theorem vxor : Statement .vxor := by unfold Statement; decide

theorem visbit : Statement .visbit := by unfold Statement; decide

theorem sdkey : Statement .sdkey := by unfold Statement; decide

theorem sdenc : Statement .sdenc := by unfold Statement; decide

theorem sddec : Statement .sddec := by unfold Statement; decide

end Sys2Proof.Laws.EncodeFields
end

