-- ==== Sys2Proof/Tests/Slice0.lean ====
section
/-!
SUPPORT. The model's own tests. Expected values come from the spec: 95_test_vectors.md part 2 for the
commands, R50 to R54 and section 2.11 for the host's transactions, R70, R73, R74 for the words. The
theorems named `witness_<Obligation>` show values that meet an obligation's hypotheses.
-/
namespace Sys2Proof.Tests

open Sys2Proof.Machine

/-- The next state, if there is one. -/
def nextOf (o : Host.Outcome State Fault Refusal) : Option State :=
  match o with
  | .next s => some s
  | .fault _ => none
  | .refused _ => none

/-- The refusal, if there is one. -/
def refusalOf (o : Host.Outcome State Fault Refusal) : Option Refusal :=
  match o with
  | .next _ => none
  | .fault _ => none
  | .refused r => some r

/-- The state a command leaves. -/
def after (i : Instr) (s : State) : Option State := nextOf (exec i s)

/-- The word a read answers, if it is admitted. -/
def readOf (a : Nat) (s : State) : Option Word :=
  match hostRead a s with
  | .ok w => some w
  | .error _ => none

/-- A sequence of integers as vector elements. -/
def vec (xs : List Int) : List Word := xs.map bitsW

/-- Integer operands loaded after reset. -/
def withInts (a b c : Int) : State :=
  { State.reset with opa := bitsW a, opb := bitsW b, opc := bitsW c }

/-- Vector operands loaded after reset. -/
def withVecs (a b : List Int) : State := { State.reset with va := vec a, vb := vec b }

/-- LNU's key 1100110001 loaded (vector T-SD1), and a block in VA. -/
def keyed (block : List Int) : State :=
  { withVecs block [] with k1 := 0x83#8, k2 := 0x3D#8, keyValid := true }

/-- A state with the transactions `es` pending. -/
def queued (es : List HostEvent) (s : State) : State := { s with pending := es }

/-! ## Well-formedness -/

theorem test_wellFormed_command : Instr.wellFormed (.vperm .p4) = true := by decide

theorem test_wellFormed_default : defaultTables.wellFormed = true := by decide

theorem test_illFormed_length :
    Config.Tables.wellFormed { defaultTables with p10 := [3, 5, 2, 7, 4, 10, 1, 9, 8] } = false := by
  decide

theorem test_illFormed_entry_zero :
    Config.Tables.wellFormed { defaultTables with ep := [4, 1, 2, 3, 2, 3, 4, 0] } = false := by decide

theorem test_illFormed_entry_above :
    Config.Tables.wellFormed { defaultTables with p8 := [6, 3, 7, 4, 8, 5, 11, 9] } = false := by
  decide

theorem test_illFormed_rows :
    Config.Tables.wellFormed { defaultTables with s0 := [[1, 0, 3, 2]] } = false := by decide

theorem test_illFormed_columns :
    Config.Tables.wellFormed
      { defaultTables with s1 := [[0, 1, 2], [2, 0, 1, 3], [3, 0, 1, 0], [2, 1, 0, 3]] } = false := by
  decide

theorem test_illFormed_value :
    Config.Tables.wellFormed
      { defaultTables with s0 := [[1, 0, 3, 4], [3, 2, 1, 0], [0, 2, 1, 3], [3, 1, 3, 2]] } = false := by
  decide

/-- IPINV with two entries exchanged is no inverse of IP. -/
theorem test_illFormed_inverse :
    Config.Tables.wellFormed { defaultTables with ipinv := [1, 4, 3, 5, 7, 2, 8, 6] } = false := by
  decide

/-! ## Decoding, from the bits R70 and R73 give -/

theorem test_decode_nop : decode 0b00000000000000000000_0000_00000000#32 = .ok .nop := by decide

theorem test_decode_mod : decode 0b00000000000000000000_0000_00010000#32 = .ok .mod := by decide

theorem test_decode_modexp : decode 0b00000000000000000000_0000_00010001#32 = .ok .modexp := by decide

theorem test_decode_eea : decode 0b00000000000000000000_0000_00010010#32 = .ok .eea := by decide

theorem test_decode_modinv : decode 0b00000000000000000000_0000_00010011#32 = .ok .modinv := by decide

theorem test_decode_vperm_vb :
    decode 0b00000000000000000000_0000_00100000#32 = .ok (.vperm .vb) := by decide

theorem test_decode_vperm_p10 :
    decode 0b00000000000000000000_0001_00100000#32 = .ok (.vperm .p10) := by decide

theorem test_decode_vperm_p8 :
    decode 0b00000000000000000000_0010_00100000#32 = .ok (.vperm .p8) := by decide

theorem test_decode_vperm_ip :
    decode 0b00000000000000000000_0011_00100000#32 = .ok (.vperm .ip) := by decide

theorem test_decode_vperm_ipinv :
    decode 0b00000000000000000000_0100_00100000#32 = .ok (.vperm .ipinv) := by decide

theorem test_decode_vperm_ep :
    decode 0b00000000000000000000_0101_00100000#32 = .ok (.vperm .ep) := by decide

theorem test_decode_vperm_p4 :
    decode 0b00000000000000000000_0110_00100000#32 = .ok (.vperm .p4) := by decide

theorem test_decode_vrotl : decode 0b00000000000000000000_0000_00100001#32 = .ok .vrotl := by decide

theorem test_decode_vxor : decode 0b00000000000000000000_0000_00100010#32 = .ok .vxor := by decide

theorem test_decode_visbit : decode 0b00000000000000000000_0000_00100011#32 = .ok .visbit := by decide

theorem test_decode_sdkey : decode 0b00000000000000000000_0000_00110000#32 = .ok .sdkey := by decide

theorem test_decode_sdenc : decode 0b00000000000000000000_0000_00110001#32 = .ok .sdenc := by decide

theorem test_decode_sddec : decode 0b00000000000000000000_0000_00110010#32 = .ok .sddec := by decide

/-- Illegal words of 95 section 2.11 and program P5. -/
theorem test_decode_illegal :
    decode 0x80000010#32 = .error .reservedBits ∧ decode 0x00001000#32 = .error .reservedBits ∧
    decode 0x00000131#32 = .error .tableSelect ∧ decode 0x00000110#32 = .error .tableSelect ∧
    decode 0x00000720#32 = .error .tableSelect ∧ decode 0x00000F20#32 = .error .tableSelect ∧
    decode 0x00000001#32 = .error .opcode ∧ decode 0x00000099#32 = .error .opcode := by decide

theorem test_decodeTableWord :
    decodeTableWord 32 0x00000520 = some (.vperm .ep) ∧ decodeTableWord 32 0x00000099 = none := by
  decide

/-! ## Commands (95 part 2) -/

theorem test_nop_keeps_esticky :
    (after .nop { State.reset with err := 3#4, esticky := true }).map statusWord
      = some 0x20#32 := by decide

theorem test_mod_negative_dividend :
    (after .mod (withInts (-7) 3 0)).map (·.res0) = some 2#32 := by decide

theorem test_mod_most_negative :
    (after .mod (withInts (-2147483648) 2147483647 0)).map (·.res0)
      = some (bitsW 2147483646) := by decide

theorem test_modexp_rsa_decrypt :
    (after .modexp (withInts 2790 2753 3233)).map (·.res0) = some 65#32 := by decide

theorem test_modexp_negative_base :
    (after .modexp (withInts (-2) 3 5)).map (·.res0) = some 2#32 ∧
    (after .modexp (withInts 0 0 1)).map (·.res0) = some 0#32 := by decide

theorem test_eea_negative_coefficient :
    (after .eea (withInts 240 46 0)).map (fun t => (t.res0, t.res1, t.res2))
      = some (2#32, bitsW (-9), 47#32) := by decide

theorem test_eea_swap_and_extreme :
    (after .eea (withInts 17 3120 0)).map (fun t => (t.res1, t.res2)) = some (bitsW (-367), 2#32) ∧
    (after .eea (withInts 2147483647 2147483646 0)).map (fun t => (t.res1, t.res2))
      = some (1#32, bitsW (-1)) := by decide

theorem test_modinv_rsa :
    (after .modinv (withInts 17 3120 0)).map (·.res0) = some (bitsW 2753) := by decide

theorem test_modinv_negative_and_none :
    (after .modinv (withInts (-3) 11 0)).map (·.res0) = some 7#32 ∧
    (after .modinv (withInts 6 9 0)).map (fun t => (t.res0, t.err)) = some (0#32, 2#4) := by decide

theorem test_vperm_vb :
    (after (.vperm .vb) (withVecs [10, 20, 30, 40] [4, 4, 1, 2, 3])).map (·.vr)
      = some (vec [40, 40, 10, 20, 30]) := by decide

theorem test_vperm_tables :
    (after (.vperm .p8) (withVecs [1, 1, 0, 0, 1, 1, 0, 0, 0, 1] [])).map (·.vr)
      = some (vec [1, 0, 0, 0, 0, 1, 1, 0]) ∧
    (after (.vperm .ipinv) (withVecs [1, 0, 1, 1, 0, 1, 0, 0] [])).map (·.vr)
      = some (vec [1, 1, 1, 0, 0, 0, 0, 1]) ∧
    (after (.vperm .p4) (withVecs [1, 0, 1] [])).map (·.err) = some 3#4 := by decide

theorem test_vrotl_reduces :
    (after .vrotl { withVecs [1, 2, 3, 4, 5] [] with opa := 7#32 }).map (·.vr)
      = some (vec [3, 4, 5, 1, 2]) := by decide

theorem test_vrotl_empty_and_negative :
    (after .vrotl { withVecs [] [] with opa := 3#32 }).map (·.vr) = some [] ∧
    (after .vrotl { withVecs [1] [] with opa := bitsW (-1) }).map (·.err) = some 3#4 := by decide

theorem test_vxor_signed :
    (after .vxor (withVecs [5, -1, 0] [3, 1, 0])).map (·.vr) = some (vec [6, -2, 0]) := by decide

theorem test_vxor_unequal :
    (after .vxor (withVecs [1, 0, 1] [1, 0])).map (fun t => (t.err, t.esticky))
      = some (3#4, true) := by decide

theorem test_visbit_false :
    (after .visbit (withVecs [1, 0, -1] [])).map (fun t => (t.res0, t.err))
      = some (0#32, 0#4) := by decide

theorem test_visbit_empty :
    (after .visbit (withVecs [] [])).map (·.res0) = some 1#32 := by decide

theorem test_sdkey_known :
    (after .sdkey (withVecs [1, 1, 0, 0, 1, 1, 0, 0, 0, 1] [])).map
      (fun t => (t.k1, t.k2, t.keyValid)) = some (0x83#8, 0x3D#8, true) := by decide

theorem test_sdkey_second :
    (after .sdkey (withVecs [0, 1, 1, 1, 1, 1, 1, 1, 0, 1] [])).map
      (fun t => (t.k1, t.k2)) = some (0x5F#8, 0xFC#8) := by decide

theorem test_sdenc_known :
    (after .sdenc (keyed [1, 1, 1, 1, 1, 1, 1, 1])).map (·.vr)
      = some (vec [0, 0, 1, 1, 1, 1, 1, 0]) := by decide

theorem test_sdenc_other :
    (after .sdenc (keyed [1, 0, 1, 0, 1, 0, 1, 0])).map (·.vr)
      = some (vec [0, 1, 1, 1, 1, 0, 0, 1]) := by decide

theorem test_sddec_zero :
    (after .sddec (keyed [0, 0, 0, 0, 0, 0, 0, 0])).map (·.vr)
      = some (vec [0, 1, 1, 0, 0, 0, 1, 0]) := by decide

theorem test_sddec_no_key_first :
    (after .sddec (withVecs [1, 1, 1, 1, 1, 1, 1] [])).map (·.err) = some 4#4 := by decide

/-! ## The host's transactions (95 section 2.11) -/

theorem test_length_write_grows :
    (nextOf (hostWrite 0x10 5#32 (withVecs [7, 8, 9] []))).map (·.va)
      = some (vec [7, 8, 9, 0, 0]) := by decide

theorem test_length_write_refused :
    refusalOf (hostWrite 0x10 17#32 State.reset) = some (.lengthOutOfRange 17#32) ∧
    refusalOf (hostWrite 0x10 (bitsW (-1)) State.reset) = some (.lengthOutOfRange (bitsW (-1))) := by
  decide

theorem test_refused :
    refusalOf (hostWrite 0x05 5#32 State.reset) = some (.writeToReadOnly 0x05) ∧
    refusalOf (hostWrite 0x13 5#32 State.reset) = some (.unmappedAddress 0x13) ∧
    refusalOf (step (queued [.read 0x00] State.reset)) = some .readOfCmd ∧
    refusalOf (step (queued [.read 0x23] (withVecs [7, 8, 9] [])))
      = some (.elementBeyondLength 0x23) ∧
    refusalOf (step (queued [.read 0x50] State.reset)) = some (.unmappedAddress 0x50) := by decide

theorem test_read_subkey : readOf 0x08 (keyed []) = some 131#32 := by decide

/-- An illegal word from `STATUS` = 0x10 leaves `STATUS` = 0x35. -/
theorem test_illegal_word_step :
    (nextOf (step ((keyed []).withFetchWord 32 0x00000001))).map
      (fun t => (statusWord t, t.responses)) = some (0x35#32, [.written]) := by decide

theorem test_withFetchWord_runs :
    (nextOf (step ((withInts (-1) 26 0).withFetchWord 32 0x00000010))).map
      (fun t => (t.res0, t.pending)) = some (25#32, []) := by decide

/-- `VLD` over an older and longer content (R80). -/
theorem test_vld :
    (scriptEvents (vldVa [1, -1])) = [.write 0x10 2#32, .write 0x20 1#32, .write 0x21 0xFFFFFFFF#32] := by
  decide

theorem test_script_notation :
    scriptEvents (vldVb [4] ++ set2 (-7) 3 ++ set3 1 2 3 ++ chk ++ vrd 2 ++ [.command .vxor]) =
      [.write 0x11 1#32, .write 0x30 4#32, .write 0x02 0xFFFFFFF9#32, .write 0x03 3#32,
       .write 0x02 1#32, .write 0x03 2#32, .write 0x04 3#32, .read 0x01, .read 0x12, .read 0x40,
       .read 0x41, .write 0x00 0x22#32] ∧ chkHolds 5#4 0x35#32 = true := by decide

/-- Reads of the result registers (program P6, after EEA) and of VR, first and last element. -/
theorem test_read_results :
    (after .eea (withInts 240 46 0)).map (fun t => [readOf 0x05 t, readOf 0x06 t, readOf 0x07 t])
      = some [some 2#32, some 0xFFFFFFF7#32, some 47#32] ∧
    (after (.vperm .vb) (withVecs [10, 20, 30, 40] [4, 4, 1, 2, 3])).map
      (fun t => [readOf 0x40 t, readOf 0x44 t, readOf 0x45 t]) = some [some 40#32, some 30#32, none] := by
  decide

/-- A step performs an accepted write to OPA (R52). -/
theorem test_step_write :
    (nextOf (step (queued [.write 0x02 0xFFFFFFF9#32] State.reset))).map (fun t => (t.opa, t.responses))
      = some (bitsW (-7), [.written]) := by decide

/-! ## Witnesses of the obligations' hypotheses -/

theorem vec_bits {xs : List Int} (h : ∀ v ∈ xs, v = 0 ∨ v = 1) :
    ∀ e ∈ vec xs, e.toInt = 0 ∨ e.toInt = 1 := by
  intro e he
  obtain ⟨v, hv, rfl⟩ := List.mem_map.1 he
  rcases h v hv with rfl | rfl
  · exact .inl rfl
  · exact .inr rfl

theorem witness_ResetGivesTableValues :
    resetCore (keyed [1]) = resetCore (keyed [1]) ∧ keyed [1] ≠ State.reset := by decide

theorem witness_ResetEventResetsTheCore :
    (queued [.reset, .read 1] (keyed [1])).pending = .reset :: [.read 1] := by decide

theorem witness_IdleCoreHoldsItsState : (keyed [1]).pending = [] := by decide

theorem witness_StepKeepsTheInvariant :
    (queued [.write 0x00 0x30#32] State.reset).Inv ∧
      ∃ t, step (queued [.write 0x00 0x30#32] State.reset) = .next t := by
  refine ⟨?_, _, rfl⟩
  constructor <;> first | decide | (intro h; exact absurd h (by decide))

/-- A command, an illegal word, and an accepted register write. -/
theorem witness_StepRunsTheDecodedCommand :
    (queued [.write 0x00 0x22#32] State.reset).pending = .write 0x00 0x22#32 :: [] ∧
    decode 0x22#32 = .ok .vxor ∧
    (queued [.write 0x00 0x99#32] State.reset).pending = .write 0x00 0x99#32 :: [] ∧
    decode 0x99#32 = .error .opcode ∧
    (queued [.write 0x02 7#32] State.reset).pending = .write 0x02 7#32 :: [] ∧
    (nextOf (hostWrite 0x02 7#32 (queued [] State.reset))).map (·.opa) = some 7#32 := by decide

theorem witness_CmdWriteIsNeverRefused :
    (queued [.write 0x00 0xFFFFFFFF#32] State.reset).pending = .write 0x00 0xFFFFFFFF#32 :: [] := by
  decide

theorem witness_ReadChangesNothing :
    (queued [.read 0x22] (withVecs [7, 8, 9] [])).pending = .read 0x22 :: [] ∧
      hostRead 0x22 (queued [.read 0x22] (withVecs [7, 8, 9] [])) = .ok 9#32 := by decide

theorem witness_RefusedTransactionStopsTheScript :
    hostRead 0x23 (queued [.read 0x23] (withVecs [7, 8, 9] [])) = .error (.elementBeyondLength 0x23) ∧
      refusalOf (hostWrite 0x01 0#32 (queued [.write 0x01 0#32] State.reset))
        = some (.writeToReadOnly 0x01) := by decide

theorem witness_DecodeInvertsEncode : decode 0x620#32 = .ok (.vperm .p4) := by decide

/-- One word for each disjunct: the least reserved bit, an unused opcode, a selector on MOD, selector 7. -/
theorem witness_IllegalWordsRaise :
    (0x1000#32).toNat / 4096 ≠ 0 ∧
    (0x24#32).toNat % 256 ∉ [0x00, 0x10, 0x11, 0x12, 0x13, 0x20, 0x21, 0x22, 0x23, 0x30, 0x31, 0x32] ∧
    ((0x110#32).toNat % 256 ≠ 0x20 ∧ (0x110#32).toNat / 256 % 16 ≠ 0) ∧
    ((0x720#32).toNat % 256 = 0x20 ∧ 7 ≤ (0x720#32).toNat / 256 % 16) := by decide

theorem witness_CommandsLeaveTheirOperands :
    ∃ t, exec .mod (withInts 7 3 0) = .next t := ⟨_, rfl⟩

theorem witness_SingleResultFrame :
    (∃ t, exec .mod (withInts 7 3 0) = .next t) ∧ (∃ t, exec .modexp (withInts 2 3 5) = .next t) ∧
    (∃ t, exec .modinv (withInts 3 7 0) = .next t) ∧ ∃ t, exec .visbit State.reset = .next t :=
  ⟨⟨_, rfl⟩, ⟨_, rfl⟩, ⟨_, rfl⟩, ⟨_, rfl⟩⟩

theorem witness_EeaFrame : ∃ t, exec .eea (withInts 12 18 0) = .next t := ⟨_, rfl⟩

theorem witness_VectorResultFrame :
    (∃ t, exec (.vperm .vb) State.reset = .next t) ∧ (∃ t, exec .vrotl State.reset = .next t) ∧
    (∃ t, exec .vxor State.reset = .next t) ∧
    (∃ t, exec .sdenc (keyed [1, 1, 1, 1, 1, 1, 1, 1]) = .next t) ∧
    ∃ t, exec .sddec (keyed [1, 1, 1, 1, 1, 1, 1, 1]) = .next t :=
  ⟨⟨_, rfl⟩, ⟨_, rfl⟩, ⟨_, rfl⟩, ⟨_, rfl⟩, ⟨_, rfl⟩⟩

theorem witness_KeyLoadFrame :
    ∃ t, exec .sdkey (withVecs [1, 1, 0, 0, 1, 1, 0, 0, 0, 1] []) = .next t := ⟨_, rfl⟩

/-- Both sides of each command's cause: nine bits, and ten; seven bits with a key, and eight. -/
theorem witness_InvalidArgumentCauses :
    (after .sdkey (withVecs [1, 1, 0, 0, 1, 1, 0, 0, 0] [])).map (·.err) = some 1#4 ∧
    (after .sdkey (withVecs [1, 1, 0, 0, 1, 1, 0, 0, 0, 1] [])).map (·.err) = some 0#4 ∧
    (after .sdenc (keyed [1, 1, 1, 1, 1, 1, 1])).map (·.err) = some 1#4 ∧
    (after .sddec (keyed [1, 1, 1, 1, 1, 1, 1, 2])).map (·.err) = some 1#4 ∧
    (after .sddec (keyed [1, 1, 1, 1, 1, 1, 1, 1])).map (·.err) = some 0#4 := by decide

/-- Both sides of each bound: OPB 0 and 1, exponent -1 and 0, modulus 0 and 1, a negative EEA operand. -/
theorem witness_DomainCauses :
    (after .mod (withInts 5 0 0)).map (·.err) = some 2#4 ∧
    (after .mod (withInts 5 1 0)).map (·.err) = some 0#4 ∧
    (after .modexp (withInts 2 (-1) 5)).map (·.err) = some 2#4 ∧
    (after .modexp (withInts 2 3 0)).map (·.err) = some 2#4 ∧
    (after .modexp (withInts 2 0 1)).map (·.err) = some 0#4 ∧
    (after .eea (withInts (-1) 0 0)).map (·.err) = some 2#4 ∧
    (after .eea (withInts 0 (-1) 0)).map (·.err) = some 2#4 ∧
    (after .eea (withInts 0 0 0)).map (·.err) = some 0#4 ∧
    (after .modinv (withInts 5 0 0)).map (·.err) = some 2#4 ∧
    (after .modinv (withInts 2 4 0)).map (·.err) = some 2#4 ∧
    (after .modinv (withInts 5 1 0)).map (·.err) = some 0#4 := by decide

/-- Both sides of each bound: table entries 0, 1, len and len + 1, distance -1 and 0, lengths. -/
theorem witness_BoundsCauses :
    (after (.vperm .vb) (withVecs [10, 20] [0])).map (·.err) = some 3#4 ∧
    (after (.vperm .vb) (withVecs [10, 20] [1, 2])).map (·.err) = some 0#4 ∧
    (after (.vperm .vb) (withVecs [10, 20] [3])).map (·.err) = some 3#4 ∧
    (after .vrotl { State.reset with opa := bitsW (-1) }).map (·.err) = some 3#4 ∧
    (after .vrotl State.reset).map (·.err) = some 0#4 ∧
    (after .vxor (withVecs [1] [])).map (·.err) = some 3#4 := by decide

theorem witness_NoKeyCauses :
    (after .sdenc State.reset).map (·.err) = some 4#4 ∧
    (after .sddec (keyed [])).map (·.err) = some 1#4 := by decide

/-- A raise sets ESTICKY, a set ESTICKY and a key stay, and a register write is no CMD write. -/
theorem witness_StatusChangesOnlyByItsCauses :
    (nextOf (step (queued [.write 0x00 0x10#32] (keyed [])))).map
      (fun t => (t.esticky, t.keyValid, t.err)) = some (true, true, 2#4) ∧
    (nextOf (step (queued [.write 0x02 1#32] { keyed [] with esticky := true }))).map
      (fun t => (t.esticky, t.keyValid)) = some (true, true) := by decide

theorem witness_KeyChangesOnlyBySdkey :
    (nextOf (step (queued [.write 0x00 0x30#32] (withVecs [1, 0, 1, 0, 0, 0, 0, 0, 1, 0] [])))).map
      (fun t => (t.k1, t.k2, t.keyValid)) = some (0xA4#8, 0x43#8, true) := by decide

theorem witness_CommandsRepeatIdentically :
    ∃ t, exec .vrotl { withVecs [1, 2, 3] [] with opa := 1#32 } = .next t := ⟨_, rfl⟩

theorem witness_ModDeliversTheRemainder :
    (withInts 5 0 0).opb.toInt < 1 ∧ 1 ≤ (withInts 5 1 0).opb.toInt := by decide

theorem witness_ModexpDeliversThePower :
    (withInts 2 (-1) 5).opb.toInt < 0 ∧ (withInts 2 3 0).opc.toInt < 1 ∧
    0 ≤ (withInts 2 0 1).opb.toInt ∧ 1 ≤ (withInts 2 0 1).opc.toInt := by decide

theorem witness_ModexpIsRepeatedMultiplication : (1 : Int) ≤ 1 ∧ modexp 2 10 1000 = 24 := by decide

theorem witness_EeaDeliversTheTriple :
    (withInts (-1) 0 0).opa.toInt < 0 ∧ (withInts 0 (-1) 0).opb.toInt < 0 ∧
    0 ≤ (withInts 0 0 0).opa.toInt ∧ 0 ≤ (withInts 0 0 0).opb.toInt ∧
    eea 46 (240 % 46) = (2, 2, -9) := by decide

theorem witness_EeaSatisfiesBezout :
    (after .eea (withInts 35 15 0)).map (fun t => (t.err, t.res0, t.res1, t.res2))
      = some (0#4, 5#32, 1#32, bitsW (-2)) := by decide

theorem witness_ModinvDeliversTheInverse :
    (withInts 5 0 0).opb.toInt < 1 ∧ Int.gcd (0 % 2) 2 ≠ 1 ∧
    1 ≤ (withInts 5 1 0).opb.toInt ∧ Int.gcd (5 % 1) 1 = 1 ∧ Int.gcd (-3 % 11) 11 = 1 := by decide

/-- An entry below 1, an entry above the length, and tables of both extreme positions: `VB`, and each
fixed table on its shortest `VA`. -/
theorem witness_VpermDeliversThePermutation :
    (∃ e ∈ (withVecs [7] [0]).vb.map BitVec.toInt, e < 1) ∧
    (∃ e ∈ ([6, 3, 7, 4, 8, 5, 10, 9] : List Int), ((vec [1, 1, 0, 0, 1, 1, 0, 0, 0]).length : Int) < e) ∧
    (∀ e ∈ (withVecs [7, 8] [1, 2]).vb.map BitVec.toInt, 1 ≤ e ∧ e ≤ 2) ∧
    (∀ e ∈ ([3, 5, 2, 7, 4, 10, 1, 9, 8, 6] : List Int), 1 ≤ e ∧ e ≤ 10) ∧
    (∀ e ∈ ([6, 3, 7, 4, 8, 5, 10, 9] : List Int), 1 ≤ e ∧ e ≤ 10) ∧
    (∀ e ∈ ([2, 6, 3, 1, 4, 8, 5, 7] : List Int), 1 ≤ e ∧ e ≤ 8) ∧
    (∀ e ∈ ([4, 1, 3, 5, 7, 2, 8, 6] : List Int), 1 ≤ e ∧ e ≤ 8) ∧
    (∀ e ∈ ([4, 1, 2, 3, 2, 3, 4, 1] : List Int), 1 ≤ e ∧ e ≤ 4) ∧
    ∀ e ∈ ([2, 4, 3, 1] : List Int), 1 ≤ e ∧ e ≤ 4 := by decide

theorem witness_FixedTableMinimumLengths :
    (TableSel.p10, 10) ∈
      [(TableSel.p10, 10), (.p8, 10), (.ip, 8), (.ipinv, 8), (.ep, 4), (.p4, 4)] ∧
    (after (.vperm .ep) (withVecs [1, 0, 1, 1] [])).map (·.err) = some 0#4 ∧
    (after (.vperm .ep) (withVecs [1, 0, 1] [])).map (·.err) = some 3#4 := by decide

theorem witness_VrotlDeliversTheRotation :
    (withInts (-1) 0 0).opa.toInt < 0 ∧ 0 ≤ (withInts 0 0 0).opa.toInt ∧
    0 < (withVecs [9] []).va.length := by decide

theorem witness_VxorDeliversTheXor :
    (withVecs [1] []).va.length ≠ (withVecs [1] []).vb.length ∧
    (withVecs [5] [3]).va.length = (withVecs [5] [3]).vb.length ∧
    (withVecs [5] [3]).va[0]? = some 5#32 ∧ (withVecs [5] [3]).vb[0]? = some 3#32 := by decide

theorem witness_XorUndoesItself : (vec [5, -1]).length = (vec [3, 1]).length := by decide

theorem witness_VisbitAnswersWhetherBits :
    (∀ e ∈ (withVecs [0, 1] []).va, e.toInt = 0 ∨ e.toInt = 1) ∧
    ∃ e ∈ (withVecs [0, 2] []).va, e.toInt ≠ 0 ∧ e.toInt ≠ 1 :=
  ⟨vec_bits (by decide), bitsW 2, by simp [withVecs, vec], by decide, by decide⟩

theorem witness_SdkeyDerivesTheSubkeys :
    ¬ ((withVecs [1, 0] []).va.length = 10 ∧
      ∀ e ∈ (withVecs [1, 0] []).va, e.toInt = 0 ∨ e.toInt = 1) ∧
    (withVecs [1, 1, 0, 0, 1, 1, 0, 0, 0, 1] []).va.length = 10 ∧
    ∀ e ∈ (withVecs [1, 1, 0, 0, 1, 1, 0, 0, 0, 1] []).va, e.toInt = 0 ∨ e.toInt = 1 :=
  ⟨fun h => absurd h.1 (by decide), rfl, vec_bits (by decide)⟩

theorem witness_SdencAndSddecTransformTheBlock :
    State.reset.keyValid = false ∧ (keyed []).keyValid = true ∧ (keyed []).va.length ≠ 8 ∧
    (keyed [1, 1, 1, 1, 1, 1, 1, 1]).va.length = 8 ∧
    ∀ e ∈ (keyed [1, 1, 1, 1, 1, 1, 1, 1]).va, e.toInt = 0 ∨ e.toInt = 1 :=
  ⟨rfl, rfl, by decide, rfl, vec_bits (by decide)⟩

/-- Round 1 of the encryption of T-SD1: rows and columns as 95 section 2.10 works them out. -/
theorem witness_RoundFunctionLooksUpBothBoxes :
    vxor (permute (vec [1, 1, 1, 1]) defaultTables.ep) (vec [1, 0, 0, 0, 0, 0, 1, 1])
      = [0#32, 1#32, 1#32, 1#32, 1#32, 1#32, 0#32, 0#32] ∧
    defaultTables.s0[1]? = some [3, 2, 1, 0] ∧ [3, 2, 1, 0][3]? = some 0 ∧
    defaultTables.s1[2]? = some [3, 0, 1, 0] ∧ [3, 0, 1, 0][2]? = some 1 := by decide

theorem witness_BlockTransformRoundTrips :
    defaultTables.wellFormed = true ∧ validBits (vec [1, 0, 0, 0, 0, 0, 1, 1]) 8 = true := by decide

theorem witness_DecryptionUndoesEncryption :
    (keyed [1, 0, 1, 0, 0, 1, 0, 1]).keyValid = true ∧
    (keyed [1, 0, 1, 0, 0, 1, 0, 1]).va.length = 8 ∧
    ∀ e ∈ (keyed [1, 0, 1, 0, 0, 1, 0, 1]).va, e.toInt = 0 ∨ e.toInt = 1 :=
  ⟨rfl, rfl, vec_bits (by decide)⟩

theorem witness_SdesResultIsABlock :
    (after .sdenc (keyed [0, 0, 0, 0, 0, 0, 0, 0])).map (fun t => (t.err, t.vr))
      = some (0#4, vec [1, 0, 0, 0, 0, 0, 0, 0]) := by decide

/-- Two states that agree on the operands of SDENC and differ elsewhere. -/
theorem witness_SdesReadsOnlyItsOperands :
    (keyed [1]).va = ({ keyed [1] with res0 := 5#32, vb := vec [1] } : State).va ∧
    (∃ t, exec .sdenc (keyed [1]) = .next t) ∧
    ∃ t, exec .sdenc { keyed [1] with res0 := 5#32, vb := vec [1] } = .next t :=
  ⟨rfl, ⟨_, rfl⟩, ⟨_, rfl⟩⟩

theorem witness_KeyScheduleOnTheBpuAgrees :
    (withVecs [1, 0, 1, 0, 0, 0, 0, 0, 1, 0] []).va.length = 10 ∧
    ∀ e ∈ (withVecs [1, 0, 1, 0, 0, 0, 0, 0, 1, 0] []).va, e.toInt = 0 ∨ e.toInt = 1 :=
  ⟨rfl, vec_bits (by decide)⟩

theorem witness_SubkeyReadsArePacked : State.reset.Inv ∧ State.reset.keyValid = false := by
  refine ⟨?_, by decide⟩
  constructor <;> first | decide | (intro h; exact absurd h (by decide))

/-- Addresses where the clauses of the map meet. -/
theorem witness_AdmittedReads :
    ([0x00, 0x0A, 0x0F, 0x13, 0x1F, 0x22, 0x2F, 0x31, 0x40, 0x50].map fun a =>
      readOf a (withVecs [7, 8] [9])) = List.replicate 10 none ∧
    ([0x01, 0x09, 0x10, 0x11, 0x12, 0x20, 0x21, 0x30].map fun a => readOf a (withVecs [7, 8] [9]))
      = [some 0#32, some 0#32, some 2#32, some 1#32, some 0#32, some 7#32, some 8#32, some 9#32] ∧
    (withVecs [7, 8] [9]).va[1]? = some 8#32 ∧ (withVecs [7, 8] [9]).vb[0]? = some 9#32 ∧
    ({ State.reset with vr := List.replicate 15 0#32 ++ [5#32] } : State).vr[15]? = some 5#32 ∧
    readOf 0x4F { State.reset with vr := List.replicate 15 0#32 ++ [5#32] } = some 5#32 := by
  decide

theorem witness_AdmittedWrites :
    ([(0x01, 0#32), (0x05, 0#32), (0x10, 17#32), (0x12, 0#32), (0x22, 0#32), (0x40, 0#32)].map
      fun x => (nextOf (hostWrite x.1 x.2 (withVecs [7, 8] [9]))).isSome) = List.replicate 6 false ∧
    ([(0x00, 0x99#32), (0x02, 0#32), (0x04, 0#32), (0x10, 16#32), (0x11, 0#32), (0x21, 0#32),
      (0x30, 0#32)].map fun x => (nextOf (hostWrite x.1 x.2 (withVecs [7, 8] [9]))).isSome)
      = List.replicate 7 true := by decide

theorem witness_WrittenWordReadsBack :
    (nextOf (hostWrite 0x21 (bitsW (-5)) (withVecs [7, 8] []))).map (readOf 0x21)
      = some (some (bitsW (-5))) := by decide

theorem witness_RegisterWriteFrame :
    (nextOf (hostWrite 0x02 1#32 State.reset)).map (·.opa) = some 1#32 ∧
    (nextOf (hostWrite 0x20 1#32 (withVecs [7, 8] []))).map (·.va) = some (vec [1, 8]) := by decide

theorem witness_RegisterWritesAreIdempotent :
    (nextOf (hostWrite 0x10 1#32 (withVecs [7, 8] []))).map (·.va) = some (vec [7]) := by decide

theorem witness_LengthWriteResizes : (0 : Nat) ≤ 16 ∧ (16 : Nat) ≤ 16 := by decide

theorem witness_VectorLoadLoadsExactly :
    ([1, -1] : List Int).length ≤ 16 ∧
    (nextOf (runSteps 3 (queued (scriptEvents (vldVa [1, -1])) (withVecs [7, 8, 9] [])))).map
      (fun t => (t.va, t.pending, t.responses)) =
        some (vec [1, -1], [], [.written, .written, .written]) ∧
    (nextOf (runSteps 3 (queued (scriptEvents (vldVb [1, -1])) State.reset))).map (fun t => t.vb)
      = some (vec [1, -1]) := by decide

end Sys2Proof.Tests
end

section
/-!
Proofs of the statements about scope: an idle core holds its state, and a write to `CMD` is never
refused. First the equations of a step and the host's side of a command.
-/
namespace Sys2Proof.Machine

theorem step_of_pending_nil {s : State} (h : s.pending = []) : step s = .next s := by
  simp only [step, stepHost, h]

theorem step_of_pending_cons {s : State} {e : HostEvent} {rest : List HostEvent}
    (h : s.pending = e :: rest) : step s = hostEvent e (setPending rest s) := by
  simp only [step, stepHost, h]

@[simp] theorem hostWrite_cmd (w : Word) (s : State) : hostWrite 0x00 w s = executeWord w s := rfl

theorem step_of_pending_cmdWrite {s : State} {w : Word} {rest : List HostEvent}
    (h : s.pending = .write 0x00 w :: rest) :
    step s = answered .written (executeWord w (setPending rest s)) := by
  rw [step_of_pending_cons h, hostEvent, hostWrite_cmd]

/-- What a command commits leaves the host's queue and answers alone. -/
theorem Commits.host_eq {s c : State} {i : Instr} (h : Commits s i c) :
    c.pending = s.pending ∧ c.responses = s.responses := by
  cases h <;> exact ⟨rfl, rfl⟩

/-- Every command word, legal or not, ends in a next state (R14, R181), with the host's queue and
answers as they were. -/
theorem executeWord_total (w : Word) (s : State) :
    ∃ t, executeWord w s = .next t ∧ t.pending = s.pending ∧ t.responses = s.responses := by
  rcases executeWord_cases w s with ⟨e, he⟩ | ⟨i, c, -, hc, he⟩
  · exact ⟨markError e s, he, rfl, rfl⟩
  · exact ⟨clearErr c, he, hc.host_eq⟩

/-- Settles O3: with an empty queue the step is the idle one. -/
theorem idleCoreHoldsItsState : Obligations.IdleCoreHoldsItsState := by
  unfold Obligations.IdleCoreHoldsItsState
  exact fun s h => step_of_pending_nil h

/-- Settles O7: the step executes the word on the state with the write taken off the queue, which
always gives a next state, and answers the write there. -/
theorem cmdWriteIsNeverRefused : Obligations.CmdWriteIsNeverRefused := by
  unfold Obligations.CmdWriteIsNeverRefused
  intro s w rest h
  obtain ⟨u, hu, hpending, hresponses⟩ := executeWord_total w (setPending rest s)
  refine ⟨respond .written u, ?_, ?_, ?_⟩
  · rw [step_of_pending_cmdWrite h, hu, answered]
  · simpa using hpending
  · simpa using hresponses

end Sys2Proof.Machine
end

section
/-!
Proof that every step keeps the invariant, and that reset meets it: one lemma per operation a step can
end with (a raise, a cleared `ERR`, a commit, a register write), then one per layer of the step.
-/
namespace Sys2Proof.Machine

/-- Settles O4: the table's values (R35) meet each clause, and no key is loaded. -/
theorem resetMeetsTheInvariant : Obligations.ResetMeetsTheInvariant := by
  unfold Obligations.ResetMeetsTheInvariant
  constructor <;> simp

/-- The invariant speaks of the core only, not of the host's queue and answers. -/
theorem State.Inv.with_host {s : State} (h : s.Inv) (es : List HostEvent) (rs : List Response) :
    State.Inv { s with pending := es, responses := rs } :=
  { h with }

theorem State.Inv.setPending {s : State} (h : s.Inv) (es : List HostEvent) :
    (setPending es s).Inv :=
  h.with_host es s.responses

theorem State.Inv.respond {s : State} (h : s.Inv) (r : Response) : (respond r s).Inv :=
  h.with_host s.pending _

theorem State.Inv.markError {s : State} (h : s.Inv) (e : ErrorCode) : (markError e s).Inv :=
  { h with errRange := errorBits_le_five e, errSticky := fun _ => rfl }

theorem State.Inv.clearErr {s : State} (h : s.Inv) : (clearErr s).Inv :=
  { h with errRange := by simp, errSticky := by simp }

theorem State.Inv.setVa {s : State} (h : s.Inv) {xs : List Word} (hx : xs.length ≤ Config.vmax) :
    (setVa xs s).Inv :=
  { h with vaLen := hx }

theorem State.Inv.setVb {s : State} (h : s.Inv) {xs : List Word} (hx : xs.length ≤ Config.vmax) :
    (setVb xs s).Inv :=
  { h with vbLen := hx }

/-- A successful command keeps the invariant: a vector result is no longer than an operand or a fixed
table, and keys come from a raw key that `SDKEY` accepts. -/
theorem Commits.keeps_inv {s c : State} {i : Instr} (hc : Commits s i c) (h : s.Inv) : c.Inv := by
  cases hc with
  | nop => exact h
  | res0 => exact { h with }
  | results => exact { h with }
  | vr i xs hi hlen =>
    have hva : s.va.length ≤ 16 := h.vaLen
    have hvb : s.vb.length ≤ 16 := h.vbLen
    have hxs : xs.length ≤ 16 := by omega
    exact { h with vrLen := hxs }
  | keys hv => exact { h with noKey := nofun, keyed := fun _ => ⟨s.va, hv, rfl, rfl⟩ }

theorem RegWrite.keeps_inv {s t : State} (hw : RegWrite s t) (h : s.Inv) : t.Inv := by
  cases hw with
  | opa => exact { h with }
  | opb => exact { h with }
  | opc => exact { h with }
  | vaLen n hn => exact h.setVa (by rwa [resize_length])
  | vbLen n hn => exact h.setVb (by rwa [resize_length])
  | vaElement i d => exact h.setVa (by simpa using h.vaLen)
  | vbElement i d => exact h.setVb (by simpa using h.vbLen)

/-- `executeWord_cases` for a word known to have answered `t`. -/
theorem executeWord_next {w : Word} {s t : State} (h : executeWord w s = .next t) :
    (∃ e, t = markError e s) ∨ ∃ i c, decode w = .ok i ∧ Commits s i c ∧ t = clearErr c := by
  rcases executeWord_cases w s with ⟨e, he⟩ | ⟨i, c, hi, hc, he⟩ <;> rw [h] at he <;> cases he
  · exact .inl ⟨e, rfl⟩
  · exact .inr ⟨i, c, hi, hc, rfl⟩

theorem hostWrite_keeps_inv {a : Nat} {d : Word} {s t : State} (h : s.Inv)
    (ht : hostWrite a d s = .next t) : t.Inv := by
  rcases hostWrite_next ht with ⟨-, hx⟩ | hw
  · rcases executeWord_next hx with ⟨e, rfl⟩ | ⟨i, c, -, hc, rfl⟩
    · exact h.markError e
    · exact (hc.keeps_inv h).clearErr
  · exact hw.keeps_inv h

theorem hostEvent_keeps_inv {e : HostEvent} {s t : State} (h : s.Inv)
    (ht : hostEvent e s = .next t) : t.Inv := by
  rcases hostEvent_next ht with ⟨-, rfl⟩ | ⟨a, w, -, -, rfl⟩ | ⟨a, d, u, -, hu, rfl⟩
  · exact resetMeetsTheInvariant.with_host s.pending s.responses
  · exact h.respond _
  · exact (hostWrite_keeps_inv h hu).respond _

/-- Settles O5: the step is idle, or performs an event, and every event keeps the invariant. -/
theorem stepKeepsTheInvariant : Obligations.StepKeepsTheInvariant := by
  unfold Obligations.StepKeepsTheInvariant
  intro s t h ht
  rcases step_next ht with ⟨-, rfl⟩ | ⟨e, rest, -, he⟩
  · exact h
  · exact hostEvent_keeps_inv (h.setPending rest) he

end Sys2Proof.Machine
end

section
/-!
Proofs of the commands' frames: what each kind of command may write, and which addresses then read as
before.
-/
namespace Sys2Proof.Machine

/-- MOD, MODEXP, MODINV and VISBIT raise, or write RES0 alone and clear `ERR`. -/
theorem exec_singleResult {i : Instr} {s t : State}
    (hi : i ∈ [Instr.mod, .modexp, .modinv, .visbit]) (h : exec i s = .next t) :
    (∃ e, t = markError e s) ∨ ∃ v, t = clearErr (setRes0 v s) := by
  refine (exec_next h).imp_right ?_
  rintro ⟨c, hc, rfl⟩
  cases hc with
  | res0 i v => exact ⟨v, rfl⟩
  | vr i xs hvr =>
    rcases hvr with ⟨sel, rfl⟩ | hvr
    · simp at hi
    · fin_cases hi <;> simp at hvr
  | _ => simp at hi

/-- EEA raises, or writes RES0, RES1 and RES2 alone and clears `ERR`. -/
theorem exec_eea {s t : State} (h : exec .eea s = .next t) :
    (∃ e, t = markError e s) ∨ ∃ g x y, t = clearErr (setResults g x y s) := by
  refine (exec_next h).imp_right ?_
  rintro ⟨c, hc, rfl⟩
  cases hc with
  | results g x y => exact ⟨g, x, y, rfl⟩
  | res0 i v hi => simp at hi
  | vr i xs hi => simp at hi

/-- VPERM, VROTL, VXOR, SDENC and SDDEC raise, or write VR alone and clear `ERR`. -/
theorem exec_vectorResult {i : Instr} {s t : State}
    (hi : (∃ sel, i = .vperm sel) ∨ i ∈ [Instr.vrotl, .vxor, .sdenc, .sddec])
    (h : exec i s = .next t) :
    (∃ e, t = markError e s) ∨ ∃ xs, t = clearErr (setVr xs s) := by
  refine (exec_next h).imp_right ?_
  rintro ⟨c, hc, rfl⟩
  cases hc with
  | vr i xs => exact ⟨xs, rfl⟩
  | res0 i v hres =>
    rcases hi with ⟨sel, rfl⟩ | hi
    · simp at hres
    · fin_cases hi <;> simp at hres
  | _ => simp at hi

/-- What a command commits leaves the operand registers alone (R21, R29). -/
theorem Commits.operands_eq {s c : State} {i : Instr} (h : Commits s i c) :
    c.opa = s.opa ∧ c.opb = s.opb ∧ c.opc = s.opc ∧ c.va = s.va ∧ c.vb = s.vb := by
  cases h <;> exact ⟨rfl, rfl, rfl, rfl, rfl⟩

/-- RES0 and STATUS show at addresses 0x05 and 0x01 alone. -/
theorem hostRead_res0_frame (s : State) (v : Word) (err : BitVec 4) (sticky : Bool) {a : Nat}
    (hstatus : a ≠ 0x01) (hres0 : a ≠ 0x05) :
    hostRead a { s with res0 := v, err := err, esticky := sticky } = hostRead a s := by
  apply hostRead_congr
  rintro p rfl
  cases p with
  | cmd => trivial
  | status => exact absurd rfl hstatus
  | res0 => exact absurd rfl hres0
  | _ => rfl

/-- RES0 to RES2 and STATUS show at addresses 0x05 to 0x07 and 0x01 alone. -/
theorem hostRead_results_frame (s : State) (g x y : Word) (err : BitVec 4) (sticky : Bool) {a : Nat}
    (hstatus : a ≠ 0x01) (hres : ¬ (0x05 ≤ a ∧ a ≤ 0x07)) :
    hostRead a { s with res0 := g, res1 := x, res2 := y, err := err, esticky := sticky } =
      hostRead a s := by
  apply hostRead_congr
  rintro p rfl
  cases p with
  | cmd => trivial
  | status => exact absurd rfl hstatus
  | res0 | res1 | res2 => exact absurd (by decide) hres
  | _ => rfl

/-- VR and STATUS show at VR's length and elements and at address 0x01 alone. -/
theorem hostRead_vr_frame (s : State) (xs : List Word) (err : BitVec 4) (sticky : Bool) {a : Nat}
    (hstatus : a ≠ 0x01) (hlen : a ≠ 0x12) (hvr : ¬ (0x40 ≤ a ∧ a < 0x50)) :
    hostRead a { s with vr := xs, err := err, esticky := sticky } = hostRead a s := by
  apply hostRead_congr
  rintro p rfl
  cases p with
  | cmd => trivial
  | status => exact absurd rfl hstatus
  | vrLen => exact absurd rfl hlen
  | vr i => exact absurd (by simp only [addressOf]; omega) hvr
  | _ => rfl

/-- Settles O14: a raise and a commit alike leave the operands and the model's own fields. -/
theorem commandsLeaveTheirOperands : Obligations.CommandsLeaveTheirOperands := by
  unfold Obligations.CommandsLeaveTheirOperands
  intro i s t h
  rcases exec_next h with ⟨e, rfl⟩ | ⟨c, hc, rfl⟩
  · simp
  · simp [hc.operands_eq, hc.host_eq]

/-- Settles O15: the command raises or writes RES0, and the two forms have the frame's shape. -/
theorem singleResultFrame : Obligations.SingleResultFrame := by
  unfold Obligations.SingleResultFrame
  intro i s t hi h
  rcases exec_singleResult hi h with ⟨e, rfl⟩ | ⟨v, rfl⟩ <;>
    exact ⟨rfl, fun _ => hostRead_res0_frame s _ _ _⟩

/-- Settles O16: EEA raises or writes its three results, and the two forms have the frame's shape. -/
theorem eeaFrame : Obligations.EeaFrame := by
  unfold Obligations.EeaFrame
  intro s t h
  rcases exec_eea h with ⟨e, rfl⟩ | ⟨g, x, y, rfl⟩ <;>
    exact ⟨rfl, fun _ => hostRead_results_frame s _ _ _ _ _⟩

/-- Settles O17: the command raises or writes VR, and the two forms have the frame's shape. -/
theorem vectorResultFrame : Obligations.VectorResultFrame := by
  unfold Obligations.VectorResultFrame
  intro i s t hi h
  rcases exec_vectorResult hi h with ⟨e, rfl⟩ | ⟨xs, rfl⟩ <;>
    exact ⟨rfl, fun _ => hostRead_vr_frame s _ _ _⟩

end Sys2Proof.Machine
end

section
/-!
Proofs of the statements about what changes STATUS and the loaded key: a step other than reset leaves
the status fields and the subkeys alone, or executes a command word. First, a word that decodes is the
command's own word (R72 to R74).
-/
namespace Sys2Proof.Machine

/-- A command word is its three fields in order (R70). -/
theorem word_eq_fields (w : Word) : w = fieldRsv w ++ fieldTsel w ++ fieldOp w := by
  unfold fieldRsv fieldTsel fieldOp
  rw [BitVec.extractLsb'_append_extractLsb'_eq_extractLsb' (rfl : 12 = 8 + 4),
    BitVec.extractLsb'_append_extractLsb'_eq_extractLsb' (rfl : 8 = 0 + 8),
    BitVec.extractLsb'_eq_self]

theorem eq_tselBits_of_tableSelOf {b : BitVec 4} {t : TableSel} (h : tableSelOf b = some t) :
    b = tselBits t := by
  unfold tableSelOf at h
  split at h <;> cases h <;> rfl

theorem eq_opBits_of_plainCommandOf {op : BitVec 8} {i : Instr} (h : plainCommandOf op = some i) :
    op = opBits i ∧ instrTsel i = 0#4 := by
  unfold plainCommandOf at h
  split at h <;> cases h <;> exact ⟨rfl, rfl⟩

/-- No word but a command's own decodes to it (R72). -/
theorem eq_encode_of_decode {w : Word} {i : Instr} (h : decode w = .ok i) : w = encode i := by
  unfold decode at h
  split at h
  · cases h
  · have hrsv : fieldRsv w = 0#20 := not_not.1 ‹_›
    rw [word_eq_fields w, hrsv, encode]
    split at h
    · split at h
      · cases h
        have htsel := eq_tselBits_of_tableSelOf ‹tableSelOf (fieldTsel w) = some _›
        rw [‹fieldOp w = 0x20#8›, htsel]
        rfl
      · cases h
    · split at h
      · cases h
      · split at h
        · cases h
          obtain ⟨hop, htsel⟩ := eq_opBits_of_plainCommandOf ‹_›
          rw [not_not.1 ‹¬ fieldTsel w ≠ 0#4›, hop, htsel]
        · cases h

/-- Two states with the same STATUS fields and the same loaded key. -/
structure SameStatusAndKey (s t : State) : Prop where
  err : t.err = s.err
  esticky : t.esticky = s.esticky
  keyValid : t.keyValid = s.keyValid
  k1 : t.k1 = s.k1
  k2 : t.k2 = s.k2

theorem RegWrite.sameStatusAndKey {s t : State} (h : RegWrite s t) : SameStatusAndKey s t := by
  cases h <;> exact ⟨rfl, rfl, rfl, rfl, rfl⟩

/-- A step other than reset executes a command word, or leaves STATUS and the loaded key alone. -/
theorem step_next_of_not_reset {s t : State} (h : step s = .next t)
    (hreset : ∀ rest, s.pending ≠ .reset :: rest) :
    SameStatusAndKey s t ∨
      ∃ w rest u, s.pending = .write 0x00 w :: rest ∧
        executeWord w (setPending rest s) = .next u ∧ t = respond .written u := by
  rcases step_next h with ⟨-, rfl⟩ | ⟨e, rest, hp, he⟩
  · exact .inl ⟨rfl, rfl, rfl, rfl, rfl⟩
  · rcases hostEvent_next he with ⟨rfl, -⟩ | ⟨a, w, rfl, -, rfl⟩ | ⟨a, d, u, rfl, hu, rfl⟩
    · exact absurd hp (hreset rest)
    · exact .inl ⟨rfl, rfl, rfl, rfl, rfl⟩
    · rcases hostWrite_next hu with ⟨rfl, hx⟩ | hw
      · exact .inr ⟨d, rest, u, hp, hx, rfl⟩
      · exact .inl { hw.sameStatusAndKey with }

/-- No command clears `KEYVALID` or touches `ESTICKY` in what it commits (R26, R27, R143). -/
theorem Commits.esticky_eq_and_keyValid {s c : State} {i : Instr} (h : Commits s i c) :
    c.esticky = s.esticky ∧ (s.keyValid = true → c.keyValid = true) := by
  cases h with
  | keys => exact ⟨rfl, fun _ => rfl⟩
  | _ => exact ⟨rfl, id⟩

/-- A command word keeps `ESTICKY` and `KEYVALID` once set, and sets `ESTICKY` only with an error
(R26, R27, R171). -/
theorem executeWord_status {w : Word} {s t : State} (h : executeWord w s = .next t) :
    (s.esticky = true → t.esticky = true) ∧ (s.keyValid = true → t.keyValid = true) ∧
      (s.esticky = false → t.esticky = true → t.err ≠ 0#4) := by
  rcases executeWord_next h with ⟨e, rfl⟩ | ⟨i, c, -, hc, rfl⟩
  · exact ⟨fun _ => rfl, id, fun _ _ => errorBits_ne_zero e⟩
  · obtain ⟨hsticky, hkey⟩ := hc.esticky_eq_and_keyValid
    exact ⟨by simp [hsticky], hkey, by simp [hsticky]⟩

/-- A commit that changes the loaded key is SDKEY's, on an accepted raw key (R132, R143). -/
theorem Commits.sdkey_of_key_changed {s c : State} {i : Instr} (h : Commits s i c)
    (hne : c.k1 ≠ s.k1 ∨ c.k2 ≠ s.k2 ∨ c.keyValid ≠ s.keyValid) :
    i = .sdkey ∧ validBits s.va Config.keyLen = true := by
  cases h with
  | keys hv => exact ⟨rfl, hv⟩
  | _ => simp at hne

/-- R141 as a statement about integers. -/
theorem validBits_toInt {s : List Word} {n : Nat} (h : validBits s n = true) :
    s.length = n ∧ ∀ e ∈ s, e.toInt = 0 ∨ e.toInt = 1 := by
  obtain ⟨hlen, hbits⟩ := (validBits_iff s n).1 h
  refine ⟨hlen, fun e he => ?_⟩
  rcases (isBits_iff s).1 hbits e he with rfl | rfl
  · exact .inl rfl
  · exact .inr rfl

/-- Settles O23: outside a CMD write the fields are the same, and a command word keeps what is set. -/
theorem statusChangesOnlyByItsCauses : Obligations.StatusChangesOnlyByItsCauses := by
  unfold Obligations.StatusChangesOnlyByItsCauses
  intro s t h hreset
  rcases step_next_of_not_reset h hreset with hsame | ⟨w, rest, u, hp, hu, rfl⟩
  · obtain ⟨herr, hsticky, hkey, -, -⟩ := hsame
    exact ⟨hsticky.trans, hkey.trans, fun hclear hset => by simp [hsticky, hclear] at hset,
      fun _ => ⟨herr, hsticky, hkey⟩⟩
  · obtain ⟨hsticky, hkey, hraised⟩ := executeWord_status hu
    exact ⟨hsticky, hkey, hraised, fun hcmd => absurd hp (hcmd w rest)⟩

/-- Settles O24: a changed key rules out every step but the commit of SDKEY, whose word is the only one
that decodes to it. -/
theorem keyChangesOnlyBySdkey : Obligations.KeyChangesOnlyBySdkey := by
  unfold Obligations.KeyChangesOnlyBySdkey
  intro s t h hreset hne
  rcases step_next_of_not_reset h hreset with hsame | ⟨w, rest, u, hp, hu, rfl⟩
  · simp [hsame.k1, hsame.k2, hsame.keyValid] at hne
  · rcases executeWord_next hu with ⟨e, rfl⟩ | ⟨i, c, hdecode, hc, rfl⟩
    · simp at hne
    · obtain ⟨rfl, hv⟩ := hc.sdkey_of_key_changed hne
      rw [eq_encode_of_decode hdecode] at hp
      exact ⟨⟨rest, hp⟩, validBits_toInt hv⟩

end Sys2Proof.Machine
end

section
/-!
Proofs of the statements about the register space: the layout of STATUS and the subkey registers, the
frame of a register write and the length registers; and that reset gives the table's values.
-/
namespace Sys2Proof.Machine

/-- The value of STATUS is below 64, so the word loses nothing of it (R24). -/
theorem statusWord_toNat (s : State) :
    (statusWord s).toNat = s.err.toNat + 16 * s.keyValid.toNat + 32 * s.esticky.toNat := by
  have herr := s.err.isLt
  have hkey := Bool.toNat_le s.keyValid
  have hsticky := Bool.toNat_le s.esticky
  rw [statusWord, BitVec.toNat_ofNat, Nat.mod_eq_of_lt (by omega)]

/-- Where STATUS shows each of its fields (R24). -/
theorem statusWord_fields (s : State) :
    (statusWord s).extractLsb' 0 4 = s.err ∧ (statusWord s).getLsbD 4 = s.keyValid ∧
      (statusWord s).getLsbD 5 = s.esticky := by
  unfold statusWord
  generalize s.err = err, s.keyValid = key, s.esticky = sticky
  revert err key sticky
  decide

/-- The bits of STATUS from bit 6 on are 0 (R24). -/
theorem statusWord_getLsbD_of_six_le (s : State) {i : Nat} (hi : 6 ≤ i) :
    (statusWord s).getLsbD i = false := by
  have herr := s.err.isLt
  have hkey := Bool.toNat_le s.keyValid
  have hsticky := Bool.toNat_le s.esticky
  have hlt : (statusWord s).toNat < 2 ^ 6 := by
    rw [statusWord_toNat]
    omega
  exact Nat.testBit_lt_two_pow (hlt.trans_le (Nat.pow_le_pow_right (by omega) hi))

/-- Element `i` of an unpacked number is its bit `n - 1 - i`: element 0 is the most significant (R12). -/
theorem unpack_getElem? {n i : Nat} (v : Nat) (hi : i < n) :
    (unpack n v)[i]? = some (BitVec.ofNat 32 (v.testBit (n - 1 - i)).toNat) := by
  simp [unpack, hi, Nat.toNat_testBit]

/-- Unpacking one more bit puts the least significant one at the end. -/
theorem unpack_succ (n v : Nat) :
    unpack (n + 1) v = unpack n (v / 2) ++ [BitVec.ofNat 32 (v % 2)] := by
  simp only [unpack, List.range_succ, List.map_append, List.map_singleton]
  congr 1
  · refine List.map_congr_left fun i hi => ?_
    have hpow : n + 1 - 1 - i = n - 1 - i + 1 := by
      have := List.mem_range.1 hi
      omega
    rw [hpow, Nat.pow_succ', Nat.div_div_eq_div_mul]
  · simp

/-- Packing an unpacked number gives back its low `n` bits (R12). -/
theorem pack_unpack (n v : Nat) : pack (unpack n v) = v % 2 ^ n := by
  induction n generalizing v with
  | zero => simp [unpack, pack, Nat.mod_one]
  | succ n ih =>
    have hbit : v % 2 % 2 ^ 32 = v % 2 := Nat.mod_eq_of_lt (by omega)
    have hfold : pack (unpack n (v / 2)) = v / 2 % 2 ^ n := ih (v / 2)
    rw [unpack_succ, pack, List.foldl_append, ← pack, hfold]
    simp only [List.foldl_cons, List.foldl_nil, BitVec.toNat_ofNat, hbit]
    rw [Nat.pow_succ', Nat.mod_mul]
    omega

/-- A subkey register's sequence packs to its number (R31). -/
theorem pack_subkeySeq (k : BitVec 8) : pack (subkeySeq k) = k.toNat := by
  rw [subkeySeq, pack_unpack, Nat.mod_eq_of_lt k.isLt]

/-- Element `i` of a subkey is bit `7 - i` of the word it reads as (R12, R31). -/
theorem subkeySeq_getElem? (k : BitVec 8) {i : Nat} (hi : i < 8) :
    (subkeySeq k)[i]? = some (BitVec.ofNat 32 ((k.setWidth 32).getLsbD (7 - i)).toNat) := by
  have hbit : 7 - i < 32 := by omega
  rw [subkeySeq, unpack_getElem? k.toNat hi, BitVec.getLsbD_setWidth, decide_eq_true hbit,
    Bool.true_and]
  rfl

/-- `RegWrite` with the register named: an admitted write of `d` to a register other than `CMD`, and the
state it leaves (R52). -/
inductive PortWrite (d : Word) (s : State) : Port → State → Prop where
  | opa : PortWrite d s .opa (setOpa d s)
  | opb : PortWrite d s .opb (setOpb d s)
  | opc : PortWrite d s .opc (setOpc d s)
  | vaLen (hd : 0 ≤ d.toInt ∧ d.toInt ≤ 16) :
      PortWrite d s .vaLen (setVa (resize s.va d.toInt.toNat) s)
  | vbLen (hd : 0 ≤ d.toInt ∧ d.toInt ≤ 16) :
      PortWrite d s .vbLen (setVb (resize s.vb d.toInt.toNat) s)
  | va (i : Fin 16) (hi : i < s.va.length) : PortWrite d s (.va i) (setVa (s.va.set i d) s)
  | vb (i : Fin 16) (hi : i < s.vb.length) : PortWrite d s (.vb i) (setVb (s.vb.set i d) s)

/-- An admitted write to an address other than that of `CMD` is a `PortWrite` to the register the
address names. -/
theorem hostWrite_portWrite {a : Nat} {d : Word} {s t : State} (ha : a ≠ 0x00)
    (h : hostWrite a d s = .next t) : ∃ p, a = addressOf p ∧ PortWrite d s p t := by
  unfold hostWrite at h
  rcases hp : portOf a with _ | p <;> simp only [hp] at h
  · cases h
  · have hap := addressOf_of_portOf hp
    refine ⟨p, hap, ?_⟩
    cases p with
    | cmd => exact absurd hap ha
    | opa | opb | opc =>
      cases h
      constructor
    | vaLen | vbLen =>
      obtain ⟨xs, hx, rfl⟩ := writeIfAdmitted_next h
      obtain ⟨h0, h16, rfl⟩ := writtenLength_ok hx
      constructor
      exact ⟨h0, h16⟩
    | va i | vb i =>
      obtain ⟨xs, hx, rfl⟩ := writeIfAdmitted_next h
      obtain ⟨hi, rfl⟩ := writtenElement_ok hx
      constructor
      exact hi
    | _ => cases h

/-- Writing a register other than a length leaves what every other register reads as (R36). -/
theorem PortWrite.sameAt {d : Word} {s t : State} {p q : Port} (h : PortWrite d s p t)
    (hva : p ≠ .vaLen) (hvb : p ≠ .vbLen) (hq : q ≠ p) : SameAt s t q := by
  cases h with
  | opa =>
    cases q with
    | cmd => trivial
    | opa => exact absurd rfl hq
    | _ => rfl
  | opb =>
    cases q with
    | cmd => trivial
    | opb => exact absurd rfl hq
    | _ => rfl
  | opc =>
    cases q with
    | cmd => trivial
    | opc => exact absurd rfl hq
    | _ => rfl
  | vaLen => exact absurd rfl hva
  | vbLen => exact absurd rfl hvb
  | va i hi =>
    cases q with
    | cmd => trivial
    | vaLen => simp [SameAt]
    | va j =>
      have hij : i.val ≠ j.val := fun hij => hq (congrArg Port.va (Fin.ext hij.symm))
      simp [SameAt, List.getElem?_set_ne hij]
    | _ => rfl
  | vb i hi =>
    cases q with
    | cmd => trivial
    | vbLen => simp [SameAt]
    | vb j =>
      have hij : i.val ≠ j.val := fun hij => hq (congrArg Port.vb (Fin.ext hij.symm))
      simp [SameAt, List.getElem?_set_ne hij]
    | _ => rfl

/-- `PortWrite.sameAt` by address. -/
theorem PortWrite.hostRead_eq {d : Word} {s t : State} {p : Port} (h : PortWrite d s p t)
    (hva : addressOf p ≠ 0x10) (hvb : addressOf p ≠ 0x11) (b : Nat) (hb : b ≠ addressOf p) :
    hostRead b t = hostRead b s := by
  refine hostRead_congr fun q hq => h.sameAt ?_ ?_ ?_ <;> rintro rfl
  · exact hva rfl
  · exact hvb rfl
  · exact hb hq

/-- A register write changes no operand register but the one it names (R52). -/
theorem PortWrite.operands_eq {d : Word} {s t : State} {p : Port} (h : PortWrite d s p t) :
    (p ≠ .opa → t.opa = s.opa) ∧ (p ≠ .opb → t.opb = s.opb) ∧ (p ≠ .opc → t.opc = s.opc) ∧
      (p ≠ .vaLen → (∀ i, p ≠ .va i) → t.va = s.va) ∧
      (p ≠ .vbLen → (∀ i, p ≠ .vb i) → t.vb = s.vb) := by
  cases h <;> simp

theorem addressOf_va_range (i : Fin 16) :
    0x20 ≤ addressOf (.va i) ∧ addressOf (.va i) < 0x30 := by
  simp only [addressOf]
  omega

theorem addressOf_vb_range (i : Fin 16) :
    0x30 ≤ addressOf (.vb i) ∧ addressOf (.vb i) < 0x40 := by
  simp only [addressOf]
  omega

/-- Writing `n` to a length register, `n` at most 16, is admitted and resizes (R52). -/
theorem writtenLength_ofNat (xs : List Word) {n : Nat} (hn : n ≤ 16) :
    writtenLength xs (BitVec.ofNat 32 n) = .ok (resize xs n) := by
  have hint : (BitVec.ofNat 32 n).toInt = n := by
    rw [BitVec.toInt_eq_toNat_of_lt] <;> rw [BitVec.toNat_ofNat, Nat.mod_eq_of_lt] <;> omega
  simp [writtenLength, hint, hn]

/-- Elements of a resized sequence below its length (R30). -/
theorem resize_getElem?_of_lt (xs : List Word) {n i : Nat} (hi : i < n) :
    (resize xs n)[i]? = some (xs[i]?.getD 0#32) := by
  rw [resize_getElem?, if_pos hi, List.getD_eq_getElem?_getD]

/-- Settles O48: the word's value loses nothing of the fields, each field stands in its place, and the
value is below 64. -/
theorem statusWordLayout : Obligations.StatusWordLayout := by
  unfold Obligations.StatusWordLayout
  intro s
  obtain ⟨herr, hkey, hsticky⟩ := statusWord_fields s
  exact ⟨⟨statusWord s, rfl, statusWord_toNat s, herr, hkey, hsticky,
    fun _ => statusWord_getLsbD_of_six_le s⟩, fun d => ⟨_, rfl⟩⟩

/-- Settles O49: a subkey reads as its eight bits widened, which the packing laws relate to its
sequence; the invariant makes it 0 without a key. -/
theorem subkeyReadsArePacked : Obligations.SubkeyReadsArePacked := by
  unfold Obligations.SubkeyReadsArePacked
  intro s
  have hread (k : BitVec 8) : (k.setWidth 32).toNat = k.toNat :=
    BitVec.toNat_setWidth_of_le (by omega)
  refine ⟨⟨s.k1.setWidth 32, s.k2.setWidth 32, rfl, rfl, ?_, ?_, ?_, ?_, ?_, ?_⟩,
    fun d => ⟨⟨_, rfl⟩, ⟨_, rfl⟩⟩⟩
  · have := s.k1.isLt
    rw [hread]
    omega
  · have := s.k2.isLt
    rw [hread]
    omega
  · rw [hread, pack_subkeySeq]
  · rw [hread, pack_subkeySeq]
  · exact fun i hi => ⟨subkeySeq_getElem? s.k1 hi, subkeySeq_getElem? s.k2 hi⟩
  · intro hinv hkey
    obtain ⟨hk1, hk2⟩ := hinv.noKey hkey
    simp [hk1, hk2]

/-- Settles O53: the register the address names is the only field written, and outside the length
registers every other register reads as before. -/
theorem registerWriteFrame : Obligations.RegisterWriteFrame := by
  unfold Obligations.RegisterWriteFrame
  intro a d s t ha h
  obtain ⟨p, rfl, hw⟩ := hostWrite_portWrite ha h
  obtain ⟨hopa, hopb, hopc, hva, hvb⟩ := hw.operands_eq
  have hframe : t = { s with opa := t.opa, opb := t.opb, opc := t.opc, va := t.va, vb := t.vb } := by
    cases hw <;> rfl
  refine ⟨hframe, fun hn => hopa ?_, fun hn => hopb ?_, fun hn => hopc ?_,
    fun hlen hel => hva ?_ fun i => ?_, fun hlen hel => hvb ?_ fun i => ?_, hw.hostRead_eq⟩ <;>
    rintro rfl
  · exact hn rfl
  · exact hn rfl
  · exact hn rfl
  · exact hlen rfl
  · exact hel (addressOf_va_range i)
  · exact hlen rfl
  · exact hel (addressOf_vb_range i)

/-- Settles O55: the length write is admitted and resizes; `resize` has the elements R30 says. -/
theorem lengthWriteResizes : Obligations.LengthWriteResizes := by
  unfold Obligations.LengthWriteResizes
  intro s n hn
  have hva : hostWrite 0x10 (BitVec.ofNat 32 n) s = .next (setVa (resize s.va n) s) :=
    congrArg (writeIfAdmitted · setVa s) (writtenLength_ofNat s.va hn)
  have hvb : hostWrite 0x11 (BitVec.ofNat 32 n) s = .next (setVb (resize s.vb n) s) :=
    congrArg (writeIfAdmitted · setVb s) (writtenLength_ofNat s.vb hn)
  exact ⟨⟨_, hva, resize_length _ _, fun _ => resize_getElem?_of_lt _⟩,
    ⟨_, hvb, resize_length _ _, fun _ => resize_getElem?_of_lt _⟩, rfl, rfl, rfl⟩

/-- Settles O1: both states hold the same values, the table's. -/
theorem resetGivesTableValues : Obligations.ResetGivesTableValues := by
  unfold Obligations.ResetGivesTableValues
  have hkey : subkeySeq 0#8 = List.replicate 8 0#32 := rfl
  rintro s t (rfl | rfl) <;> simp [hkey]

end Sys2Proof.Machine
end

section
/-!
Proofs of the statements about the host's transactions: what a step does with each of them, which
addresses a read and a write are admitted at, that a written word reads back, and that a write, or a
command, repeated at once changes nothing more.
-/
namespace Sys2Proof.Machine

/-! ### A step and its transaction -/

theorem step_of_pending_read {s : State} {a : Nat} {w : Word} {rest : List HostEvent}
    (hp : s.pending = .read a :: rest) (h : hostRead a s = .ok w) :
    step s = .next (respond (.data w) (setPending rest s)) := by
  have hread : hostRead a (setPending rest s) = .ok w := h
  rw [step_of_pending_cons hp]
  simp only [hostEvent, hread]

theorem step_of_pending_refusedRead {s : State} {a : Nat} {r : Refusal} {rest : List HostEvent}
    (hp : s.pending = .read a :: rest) (h : hostRead a s = .error r) : step s = .refused r := by
  have hread : hostRead a (setPending rest s) = .error r := h
  rw [step_of_pending_cons hp]
  simp only [hostEvent, hread]

theorem step_of_pending_write {s : State} {a : Nat} {d : Word} {rest : List HostEvent}
    (hp : s.pending = .write a d :: rest) :
    step s = answered .written (hostWrite a d (setPending rest s)) := by
  rw [step_of_pending_cons hp, hostEvent]

theorem executeWord_of_decode {w : Word} {i : Instr} (h : decode w = .ok i) (s : State) :
    executeWord w s = exec i s := by
  simp only [executeWord, h]

theorem executeWord_of_illegal {w : Word} {e : Illegal} (h : decode w = .error e) (s : State) :
    executeWord w s = .next (markError .illegalCommand s) := by
  simp only [executeWord, h, raise_eq]

theorem writeIfAdmitted_refused {new : Except Refusal (List Word)}
    {store : List Word → State → State} {s : State} {r : Refusal} :
    writeIfAdmitted new store s = .refused r ↔ new = .error r := by
  cases new <;> simp [writeIfAdmitted]

/-- A refused write does not depend on what the host will do next: a command word is never refused
(R181), and the other reasons are the address, the value and the lengths (R53). -/
theorem hostWrite_setPending_refused {a : Nat} {d : Word} {s : State} {r : Refusal}
    (h : hostWrite a d s = .refused r) (es : List HostEvent) :
    hostWrite a d (setPending es s) = .refused r := by
  rcases hp : portOf a with _ | p <;> simp only [hostWrite, hp] at h ⊢
  · exact h
  · cases p with
    | cmd =>
      obtain ⟨t, ht, -⟩ := executeWord_total d s
      rw [ht] at h
      cases h
    | opa | opb | opc => cases h
    | vaLen | vbLen | va i | vb i => exact writeIfAdmitted_refused.2 (writeIfAdmitted_refused.1 h)
    | _ => exact h

/-- Settles O8: the read answers its word on the state with the read taken off the queue. -/
theorem readChangesNothing : Obligations.ReadChangesNothing := by
  unfold Obligations.ReadChangesNothing
  exact fun s a w rest hp h => step_of_pending_read hp h

/-- Settles O6: the step executes the word, or performs the write, on the state with the transaction
taken off the queue, and answers it. -/
theorem stepRunsTheDecodedCommand : Obligations.StepRunsTheDecodedCommand := by
  unfold Obligations.StepRunsTheDecodedCommand
  refine ⟨fun s w rest i hp hd => ?_, fun s w rest e hp hd => ?_, fun s t a d rest hp h => ?_⟩
  · rw [step_of_pending_cmdWrite hp, executeWord_of_decode hd, setPending]
    cases exec i { s with pending := rest } <;> rfl
  · rw [step_of_pending_cmdWrite hp, executeWord_of_illegal hd]
    rfl
  · rw [step_of_pending_write hp, setPending, h]
    rfl

/-- Settles O9: a refused read or write is refused the same with the transaction taken off the queue. -/
theorem refusedTransactionStopsTheScript : Obligations.RefusedTransactionStopsTheScript := by
  unfold Obligations.RefusedTransactionStopsTheScript
  rintro s e rest r hp (⟨a, rfl, h⟩ | ⟨a, d, rfl, h⟩)
  · exact step_of_pending_refusedRead hp h
  · rw [step_of_pending_write hp, hostWrite_setPending_refused h rest, answered]

/-! ### Register writes, by the register they name -/

theorem resize_resize (xs : List Word) (n : Nat) : resize (resize xs n) n = resize xs n := by
  rw [resize, if_pos (resize_length xs n).ge, List.take_of_length_le (resize_length xs n).le]

/-- A length that a write may set is what the length register then reads as (R30, R54). -/
theorem bitsW_resize_length (xs : List Word) {d : Word} (hd : 0 ≤ d.toInt) :
    bitsW (resize xs d.toInt.toNat).length = d := by
  rw [resize_length, Int.toNat_of_nonneg hd, bitsW, BitVec.ofInt_toInt]

theorem hostRead_va (i : Fin 16) (s : State) :
    hostRead (addressOf (.va i)) s = readElement (addressOf (.va i)) s.va i := by
  simp only [hostRead, portOf_addressOf]

theorem hostRead_vb (i : Fin 16) (s : State) :
    hostRead (addressOf (.vb i)) s = readElement (addressOf (.vb i)) s.vb i := by
  simp only [hostRead, portOf_addressOf]

theorem hostRead_vr (i : Fin 16) (s : State) :
    hostRead (addressOf (.vr i)) s = readElement (addressOf (.vr i)) s.vr i := by
  simp only [hostRead, portOf_addressOf]

theorem writtenLength_of_range (xs : List Word) {d : Word} (hd : 0 ≤ d.toInt ∧ d.toInt ≤ 16) :
    writtenLength xs d = .ok (resize xs d.toInt.toNat) :=
  if_pos hd

theorem writtenElement_of_lt {xs : List Word} {i : Nat} (a : Nat) (hi : i < xs.length) (d : Word) :
    writtenElement a xs i d = .ok (xs.set i d) :=
  if_pos hi

/-- Every `PortWrite` is the write transaction to its register's address. -/
theorem PortWrite.hostWrite_eq {d : Word} {s t : State} {p : Port} (h : PortWrite d s p t) :
    hostWrite (addressOf p) d s = .next t := by
  cases h with
  | opa | opb | opc => rfl
  | vaLen hd | vbLen hd =>
    simp only [hostWrite, portOf_addressOf, writtenLength_of_range _ hd, writeIfAdmitted]
  | va i hi | vb i hi =>
    simp only [hostWrite, portOf_addressOf, writtenElement_of_lt _ hi, writeIfAdmitted]

/-- A register write can be made again on the state it left, and leaves that state (R57). -/
theorem PortWrite.repeats {d : Word} {s t : State} {p : Port} (h : PortWrite d s p t) :
    PortWrite d t p t := by
  cases h with
  | opa => exact .opa (s := setOpa d s)
  | opb => exact .opb (s := setOpb d s)
  | opc => exact .opc (s := setOpc d s)
  | vaLen hd =>
    have := PortWrite.vaLen (s := setVa (resize s.va d.toInt.toNat) s) hd
    rwa [setVa_va, resize_resize] at this
  | vbLen hd =>
    have := PortWrite.vbLen (s := setVb (resize s.vb d.toInt.toNat) s) hd
    rwa [setVb_vb, resize_resize] at this
  | va i hi =>
    have := PortWrite.va (d := d) (s := setVa (s.va.set i d) s) i (by simpa using hi)
    rwa [setVa_va, List.set_set] at this
  | vb i hi =>
    have := PortWrite.vb (d := d) (s := setVb (s.vb.set i d) s) i (by simpa using hi)
    rwa [setVb_vb, List.set_set] at this

/-- The register written reads as the word written (R54). -/
theorem PortWrite.reads_back {d : Word} {s t : State} {p : Port} (h : PortWrite d s p t) :
    hostRead (addressOf p) t = .ok d := by
  cases h with
  | opa | opb | opc => rfl
  | vaLen hd => exact congrArg Except.ok (bitsW_resize_length s.va hd.1)
  | vbLen hd => exact congrArg Except.ok (bitsW_resize_length s.vb hd.1)
  | va i hi => exact (hostRead_va i _).trans (readElement_ok.2 (List.getElem?_set_self hi))
  | vb i hi => exact (hostRead_vb i _).trans (readElement_ok.2 (List.getElem?_set_self hi))

/-- Settles O52: an accepted write other than to CMD is a `PortWrite`, whose register reads back. -/
theorem writtenWordReadsBack : Obligations.WrittenWordReadsBack := by
  unfold Obligations.WrittenWordReadsBack
  intro a d s t ha h
  obtain ⟨p, rfl, hw⟩ := hostWrite_portWrite ha h
  exact hw.reads_back

/-- Settles O54: an accepted write other than to CMD is a `PortWrite`, which repeats. -/
theorem registerWritesAreIdempotent : Obligations.RegisterWritesAreIdempotent := by
  unfold Obligations.RegisterWritesAreIdempotent
  intro a d s t ha h
  obtain ⟨p, rfl, hw⟩ := hostWrite_portWrite ha h
  exact hw.repeats.hostWrite_eq

/-! ### The admitted addresses -/

/-- The reads R50 and R51 admit. -/
def ReadAdmitted (a : Nat) (s : State) : Prop :=
  (0x01 ≤ a ∧ a ≤ 0x09) ∨ (0x10 ≤ a ∧ a ≤ 0x12) ∨
  (0x20 ≤ a ∧ a < 0x30 ∧ a - 0x20 < s.va.length) ∨
  (0x30 ≤ a ∧ a < 0x40 ∧ a - 0x30 < s.vb.length) ∨
  (0x40 ≤ a ∧ a < 0x50 ∧ a - 0x40 < s.vr.length)

/-- The writes R50 and R52 admit. -/
def WriteAdmitted (a : Nat) (d : Word) (s : State) : Prop :=
  a = 0x00 ∨ (0x02 ≤ a ∧ a ≤ 0x04) ∨
  ((a = 0x10 ∨ a = 0x11) ∧ 0 ≤ d.toInt ∧ d.toInt ≤ 16) ∨
  (0x20 ≤ a ∧ a < 0x30 ∧ a - 0x20 < s.va.length) ∨
  (0x30 ≤ a ∧ a < 0x40 ∧ a - 0x30 < s.vb.length)

/-- An address of the map's vector part is that of the element at its offset (R50). -/
theorem exists_addressOf_va {a : Nat} (h : 0x20 ≤ a ∧ a < 0x30) :
    ∃ i : Fin 16, a = addressOf (.va i) ∧ i.val = a - 0x20 :=
  ⟨⟨a - 0x20, by omega⟩, by simp only [addressOf]; omega, rfl⟩

theorem exists_addressOf_vb {a : Nat} (h : 0x30 ≤ a ∧ a < 0x40) :
    ∃ i : Fin 16, a = addressOf (.vb i) ∧ i.val = a - 0x30 :=
  ⟨⟨a - 0x30, by omega⟩, by simp only [addressOf]; omega, rfl⟩

theorem exists_addressOf_vr {a : Nat} (h : 0x40 ≤ a ∧ a < 0x50) :
    ∃ i : Fin 16, a = addressOf (.vr i) ∧ i.val = a - 0x40 :=
  ⟨⟨a - 0x40, by omega⟩, by simp only [addressOf]; omega, rfl⟩

/-- An element below the length is read (R51). -/
theorem exists_readElement {xs : List Word} {i : Nat} (h : i < xs.length) (a : Nat) :
    ∃ w, readElement a xs i = .ok w :=
  ⟨xs[i], readElement_ok.2 (List.getElem?_eq_getElem h)⟩

theorem lt_length_of_readElement {a i : Nat} {xs : List Word} {w : Word}
    (h : readElement a xs i = .ok w) : i < xs.length :=
  (List.getElem?_eq_some_iff.1 (readElement_ok.1 h)).1

theorem hostRead_of_readAdmitted {a : Nat} {s : State} (h : ReadAdmitted a s) :
    ∃ w, hostRead a s = .ok w := by
  rcases h with ⟨h1, h9⟩ | ⟨h10, h12⟩ | ⟨hl, hu, hlen⟩ | ⟨hl, hu, hlen⟩ | ⟨hl, hu, hlen⟩
  · interval_cases a <;> exact ⟨_, rfl⟩
  · interval_cases a <;> exact ⟨_, rfl⟩
  · obtain ⟨i, rfl, hi⟩ := exists_addressOf_va ⟨hl, hu⟩
    rw [hostRead_va]
    exact exists_readElement (hi ▸ hlen) _
  · obtain ⟨i, rfl, hi⟩ := exists_addressOf_vb ⟨hl, hu⟩
    rw [hostRead_vb]
    exact exists_readElement (hi ▸ hlen) _
  · obtain ⟨i, rfl, hi⟩ := exists_addressOf_vr ⟨hl, hu⟩
    rw [hostRead_vr]
    exact exists_readElement (hi ▸ hlen) _

/-- Each port's address is in its clause of the map; CMD's read, and an unmapped one, is refused. -/
theorem readAdmitted_of_hostRead {a : Nat} {s : State} {w : Word} (h : hostRead a s = .ok w) :
    ReadAdmitted a s := by
  unfold ReadAdmitted
  rcases hp : portOf a with _ | p <;> simp only [hostRead, hp] at h
  · cases h
  · have ha := addressOf_of_portOf hp
    cases p with
    | cmd => cases h
    | va i | vb i | vr i =>
      have hi := lt_length_of_readElement h
      simp only [addressOf] at ha
      omega
    | _ =>
      simp only [addressOf] at ha
      omega

theorem hostWrite_of_writeAdmitted {a : Nat} {d : Word} {s : State} (h : WriteAdmitted a d s) :
    ∃ t, hostWrite a d s = .next t := by
  rcases h with rfl | ⟨h2, h4⟩ | ⟨rfl | rfl, hd⟩ | ⟨hl, hu, hlen⟩ | ⟨hl, hu, hlen⟩
  · obtain ⟨t, ht, -⟩ := executeWord_total d s
    exact ⟨t, ht⟩
  · interval_cases a <;> exact ⟨_, rfl⟩
  · exact ⟨_, (PortWrite.vaLen hd).hostWrite_eq⟩
  · exact ⟨_, (PortWrite.vbLen hd).hostWrite_eq⟩
  · obtain ⟨i, rfl, hi⟩ := exists_addressOf_va ⟨hl, hu⟩
    exact ⟨_, (PortWrite.va i (hi ▸ hlen)).hostWrite_eq⟩
  · obtain ⟨i, rfl, hi⟩ := exists_addressOf_vb ⟨hl, hu⟩
    exact ⟨_, (PortWrite.vb i (hi ▸ hlen)).hostWrite_eq⟩

theorem PortWrite.writeAdmitted {d : Word} {s t : State} {p : Port} (h : PortWrite d s p t) :
    WriteAdmitted (addressOf p) d s := by
  unfold WriteAdmitted
  cases h with
  | opa | opb | opc => exact .inr (.inl (by decide))
  | vaLen hd => exact .inr (.inr (.inl ⟨.inl rfl, hd⟩))
  | vbLen hd => exact .inr (.inr (.inl ⟨.inr rfl, hd⟩))
  | va i hi | vb i hi =>
    simp only [addressOf]
    omega

/-- Settles O50: a read that is not refused is to a register the map lets the host read, and each
register's address reads as that register; a subkey's word is its packed sequence. -/
theorem admittedReads : Obligations.AdmittedReads := by
  unfold Obligations.AdmittedReads
  intro a s
  have hkey (k : BitVec 8) :
      (.ok (k.setWidth 32) : Except Refusal Word) = .ok (BitVec.ofNat 32 (pack (subkeySeq k))) := by
    rw [pack_subkeySeq, BitVec.ofNat_toNat]
  refine ⟨hostRead_of_readAdmitted, fun hn => ?_, rfl, rfl, rfl, rfl, rfl, rfl, rfl, hkey s.k1,
    hkey s.k2, rfl, rfl, rfl, fun i w hi => ⟨fun h => ?_, fun h => ?_, fun h => ?_⟩⟩
  · cases hr : hostRead a s with
    | ok w => exact absurd (readAdmitted_of_hostRead hr) hn
    | error r => exact ⟨r, rfl⟩
  · exact (hostRead_va ⟨i, hi⟩ s).trans (readElement_ok.2 h)
  · exact (hostRead_vb ⟨i, hi⟩ s).trans (readElement_ok.2 h)
  · exact (hostRead_vr ⟨i, hi⟩ s).trans (readElement_ok.2 h)

/-- Settles O51: a write that is accepted is to CMD or is a `PortWrite`, to an address and of a value
that are admitted; no write faults, so any other is refused. -/
theorem admittedWrites : Obligations.AdmittedWrites := by
  unfold Obligations.AdmittedWrites
  intro a d s
  refine ⟨hostWrite_of_writeAdmitted, fun hn => ?_⟩
  cases hw : hostWrite a d s with
  | next t =>
    have ha : a ≠ 0x00 := fun ha => hn (.inl ha)
    obtain ⟨p, rfl, hp⟩ := hostWrite_portWrite ha hw
    exact absurd hp.writeAdmitted hn
  | fault f => cases f
  | refused r => exact ⟨r, rfl⟩

/-! ### A command repeated -/

/-- Two states alike in what command `i` may read: the operand registers and, for the block commands,
the loaded key (R144). -/
structure SameInputs (i : Instr) (s t : State) : Prop where
  opa : t.opa = s.opa
  opb : t.opb = s.opb
  opc : t.opc = s.opc
  va : t.va = s.va
  vb : t.vb = s.vb
  key : i = .sdenc ∨ i = .sddec → t.keyValid = s.keyValid ∧ t.k1 = s.k1 ∧ t.k2 = s.k2

/-- Two outcomes are one update, made on `s` and on `t`, that made twice is made once. -/
def SameUpdate (s t : State) (o o' : Host.Outcome State Fault Refusal) : Prop :=
  ∃ f : State → State, (∀ u, f (f u) = f u) ∧ o = .next (f s) ∧ o' = .next (f t)

theorem sameUpdate_raise (s t : State) (e : ErrorCode) : SameUpdate s t (raise e s) (raise e t) :=
  ⟨markError e, fun _ => rfl, rfl, rfl⟩

theorem sameUpdate_succeed (s t : State) {commit : State → State}
    (h : ∀ u, clearErr (commit (clearErr (commit u))) = clearErr (commit u)) :
    SameUpdate s t (succeed commit s) (succeed commit t) :=
  ⟨clearErr ∘ commit, h, succeed_eq commit s, succeed_eq commit t⟩

theorem sameUpdate_res0 (s t : State) (v : Word) :
    SameUpdate s t (succeed (setRes0 v) s) (succeed (setRes0 v) t) :=
  sameUpdate_succeed s t fun _ => rfl

theorem sameUpdate_results (s t : State) (g x y : Word) :
    SameUpdate s t (succeed (setResults g x y) s) (succeed (setResults g x y) t) :=
  sameUpdate_succeed s t fun _ => rfl

theorem sameUpdate_vr (s t : State) (xs : List Word) :
    SameUpdate s t (succeed (setVr xs) s) (succeed (setVr xs) t) :=
  sameUpdate_succeed s t fun _ => rfl

theorem sameUpdate_keys (s t : State) (a b : BitVec 8) :
    SameUpdate s t (succeed (setKeys a b) s) (succeed (setKeys a b) t) :=
  sameUpdate_succeed s t fun _ => rfl

/-- What a command writes is fixed by what it may read: on two states alike in that, it ends in the same
update. -/
theorem exec_sameUpdate {i : Instr} {s t : State} (h : SameInputs i s t) :
    SameUpdate s t (exec i s) (exec i t) := by
  obtain ⟨hopa, hopb, hopc, hva, hvb, hkey⟩ := h
  cases i with
  | nop => exact sameUpdate_succeed s t (commit := id) fun _ => rfl
  | mod =>
    simp only [exec, execMod, hopa, hopb]
    split
    · exact sameUpdate_raise s t _
    · exact sameUpdate_res0 s t _
  | modexp =>
    simp only [exec, execModexp, hopa, hopb, hopc]
    split
    · exact sameUpdate_raise s t _
    · split
      · exact sameUpdate_raise s t _
      · exact sameUpdate_res0 s t _
  | eea =>
    simp only [exec, execEea, hopa, hopb]
    split
    · exact sameUpdate_raise s t _
    · split
      · exact sameUpdate_results s t _ _ _
      · exact sameUpdate_raise s t _
  | modinv =>
    simp only [exec, execModinv, hopa, hopb]
    split
    · exact sameUpdate_raise s t _
    · split
      · exact sameUpdate_raise s t _
      · exact sameUpdate_res0 s t _
  | vperm sel =>
    have hsel : selectedTable defaultTables sel t = selectedTable defaultTables sel s := by
      simp only [selectedTable, hvb]
    simp only [exec, execVperm, hsel, hva]
    split
    · exact sameUpdate_vr s t _
    · exact sameUpdate_raise s t _
  | vrotl =>
    simp only [exec, execVrotl, hopa, hva]
    split
    · exact sameUpdate_raise s t _
    · exact sameUpdate_vr s t _
  | vxor =>
    simp only [exec, execVxor, hva, hvb]
    split
    · exact sameUpdate_raise s t _
    · exact sameUpdate_vr s t _
  | visbit =>
    simp only [exec, execVisbit, hva]
    exact sameUpdate_res0 s t _
  | sdkey =>
    simp only [exec, execSdkey, hva]
    split
    · exact sameUpdate_keys s t _ _
    · exact sameUpdate_raise s t _
  | sdenc =>
    obtain ⟨hvalid, hk1, hk2⟩ := hkey (.inl rfl)
    simp only [exec, execSdenc, hvalid, hva, hk1, hk2]
    split
    · exact sameUpdate_raise s t _
    · split
      · exact sameUpdate_vr s t _
      · exact sameUpdate_raise s t _
  | sddec =>
    obtain ⟨hvalid, hk1, hk2⟩ := hkey (.inr rfl)
    simp only [exec, execSddec, hvalid, hva, hk1, hk2]
    split
    · exact sameUpdate_raise s t _
    · split
      · exact sameUpdate_vr s t _
      · exact sameUpdate_raise s t _

/-- A command leaves alone what it may read (R21, R29); the block commands write no key. -/
theorem exec_sameInputs {i : Instr} {s t : State} (h : exec i s = .next t) : SameInputs i s t := by
  obtain ⟨hopa, hopb, hopc, hva, hvb, -, -⟩ := commandsLeaveTheirOperands i s t h
  refine ⟨hopa, hopb, hopc, hva, hvb, fun hi => ?_⟩
  have hi' : i ∈ [Instr.vrotl, .vxor, .sdenc, .sddec] := by
    rcases hi with rfl | rfl <;> simp
  rcases exec_vectorResult (.inr hi') h with ⟨e, rfl⟩ | ⟨xs, rfl⟩ <;> exact ⟨rfl, rfl, rfl⟩

/-- Settles O25: the state a command leaves is alike in what the command reads, so the same update is
made again, on a state that has it. -/
theorem commandsRepeatIdentically : Obligations.CommandsRepeatIdentically := by
  unfold Obligations.CommandsRepeatIdentically
  intro i s t h
  obtain ⟨f, hf, hs, ht⟩ := exec_sameUpdate (exec_sameInputs h)
  rw [h] at hs
  cases hs
  rw [ht, hf]

end Sys2Proof.Machine
end

section
/-!
Proofs of the statements about command words: decoding undoes encoding, and exactly the words of R75
are illegal. The words' fields are read as numbers, as R70 gives them.
-/
namespace Sys2Proof.Machine

theorem tableSelOf_tselBits (t : TableSel) : tableSelOf (tselBits t) = some t := by
  cases t <;> rfl

/-- The three fields of a command's word, from the facts for each command (R70, R73). -/
theorem encodeFields (i : Instr) : Laws.EncodeFields.Statement i := by
  cases i with
  | nop => exact Laws.EncodeFields.nop
  | mod => exact Laws.EncodeFields.mod
  | modexp => exact Laws.EncodeFields.modexp
  | eea => exact Laws.EncodeFields.eea
  | modinv => exact Laws.EncodeFields.modinv
  | vperm t => exact Laws.EncodeFields.vperm t
  | vrotl => exact Laws.EncodeFields.vrotl
  | vxor => exact Laws.EncodeFields.vxor
  | visbit => exact Laws.EncodeFields.visbit
  | sdkey => exact Laws.EncodeFields.sdkey
  | sdenc => exact Laws.EncodeFields.sdenc
  | sddec => exact Laws.EncodeFields.sddec

/-- Every command decodes from its own word: the decoder sees the fields the encoder wrote (R72). -/
theorem decode_encode (i : Instr) : decode (encode i) = .ok i := by
  obtain ⟨-, hrsv, htsel, hop⟩ := encodeFields i
  simp only [decode, hrsv, htsel, hop]
  cases i with
  | vperm t => simp [instrTsel, opBits, tableSelOf_tselBits]
  | _ => rfl

/-- Settles O10: `decode_encode`, and its converse `eq_encode_of_decode`. -/
theorem decodeInvertsEncode : Obligations.DecodeInvertsEncode := by
  unfold Obligations.DecodeInvertsEncode
  refine ⟨fun i => ?_, fun w i => eq_encode_of_decode⟩
  obtain ⟨hwf, -⟩ := encodeFields i
  exact ⟨hwf, decode_encode i⟩

/-- Settles O12: each word written out is its command's encoding. -/
theorem opcodeMapWordsDecode : Obligations.OpcodeMapWordsDecode := by
  unfold Obligations.OpcodeMapWordsDecode
  exact ⟨decode_encode .nop, decode_encode .mod, decode_encode .modexp, decode_encode .eea,
    decode_encode .modinv, decode_encode (.vperm .vb), decode_encode (.vperm .p10),
    decode_encode (.vperm .p8), decode_encode (.vperm .ip), decode_encode (.vperm .ipinv),
    decode_encode (.vperm .ep), decode_encode (.vperm .p4), decode_encode .vrotl,
    decode_encode .vxor, decode_encode .visbit, decode_encode .sdkey, decode_encode .sdenc,
    decode_encode .sddec⟩

theorem fieldOp_toNat (w : Word) : (fieldOp w).toNat = w.toNat % 256 := by
  simp [fieldOp]

theorem fieldTsel_toNat (w : Word) : (fieldTsel w).toNat = w.toNat / 256 % 16 := by
  simp [fieldTsel, Nat.shiftRight_eq_div_pow]

theorem fieldRsv_toNat (w : Word) : (fieldRsv w).toNat = w.toNat / 4096 := by
  have := w.isLt
  simp [fieldRsv, Nat.shiftRight_eq_div_pow]
  omega

/-- The selectors that select nothing (R74). -/
theorem tableSelOf_eq_none_iff (b : BitVec 4) : tableSelOf b = none ↔ 7 ≤ b.toNat := by
  revert b
  decide

/-- The opcodes of R73, `VPERM`'s included. -/
def opcodes : List Nat :=
  [0x00, 0x10, 0x11, 0x12, 0x13, 0x20, 0x21, 0x22, 0x23, 0x30, 0x31, 0x32]

theorem plainCommandOf_eq_none_iff {op : BitVec 8} (h : op ≠ 0x20#8) :
    plainCommandOf op = none ↔ op.toNat ∉ opcodes := by
  revert op
  decide

/-- Where the decoder refuses, in its order (R72). -/
theorem exists_decode_eq_error_iff (w : Word) :
    (∃ e, decode w = .error e) ↔
      fieldRsv w ≠ 0#20 ∨
      (fieldOp w = 0x20#8 ∧ tableSelOf (fieldTsel w) = none) ∨
      (fieldOp w ≠ 0x20#8 ∧ (fieldTsel w ≠ 0#4 ∨ plainCommandOf (fieldOp w) = none)) := by
  unfold decode
  by_cases hrsv : fieldRsv w = 0#20
  · by_cases hop : fieldOp w = 0x20#8
    · cases tableSelOf (fieldTsel w) <;> simp [hrsv, hop]
    · by_cases htsel : fieldTsel w = 0#4
      · cases plainCommandOf (fieldOp w) <;> simp [hrsv, hop, htsel]
      · simp [hrsv, hop, htsel]
  · simp [hrsv]

/-- The words R75 calls illegal. -/
def IllegalWord (w : Word) : Prop :=
  w.toNat / 4096 ≠ 0 ∨ w.toNat % 256 ∉ opcodes ∨
  (w.toNat % 256 ≠ 0x20 ∧ w.toNat / 256 % 16 ≠ 0) ∨
  (w.toNat % 256 = 0x20 ∧ 7 ≤ w.toNat / 256 % 16)

/-- The decoder refuses exactly the illegal words: `VPERM`'s opcode and the others apart, each refusal
is a clause of R75. -/
theorem exists_decode_eq_error_iff_illegalWord (w : Word) :
    (∃ e, decode w = .error e) ↔ IllegalWord w := by
  rw [exists_decode_eq_error_iff, IllegalWord, ← fieldRsv_toNat, ← fieldOp_toNat, ← fieldTsel_toNat]
  have hrsv : fieldRsv w ≠ 0#20 ↔ (fieldRsv w).toNat ≠ 0 := BitVec.toNat_ne_iff_ne.symm
  have htsel : fieldTsel w ≠ 0#4 ↔ (fieldTsel w).toNat ≠ 0 := BitVec.toNat_ne_iff_ne.symm
  have hvperm : (fieldOp w).toNat = 0x20 ↔ fieldOp w = 0x20#8 := BitVec.toNat_inj (y := 0x20#8)
  rw [hrsv, htsel, hvperm, tableSelOf_eq_none_iff]
  by_cases hop : fieldOp w = 0x20#8
  · have hmem : 0x20 ∈ opcodes := by decide
    simp [hop, hmem]
  · rw [plainCommandOf_eq_none_iff hop]
    tauto

/-- Settles O11: the decoder refuses exactly the words of R75, and executing a refused word is the
raise of ILLEGAL_COMMAND. -/
theorem illegalWordsRaise : Obligations.IllegalWordsRaise := by
  unfold Obligations.IllegalWordsRaise
  intro w s
  have hiff := exists_decode_eq_error_iff_illegalWord w
  refine ⟨hiff, fun hillegal => ?_⟩
  obtain ⟨e, he⟩ := hiff.2 hillegal
  exact executeWord_of_illegal he s

end Sys2Proof.Machine
end

section
/-!
Proof that every command ends in success or in a precise raise.
-/
namespace Sys2Proof.Machine

theorem one_le_errorBits (e : ErrorCode) : 1 ≤ (errorBits e).toNat :=
  Nat.pos_of_ne_zero fun h => errorBits_ne_zero e (BitVec.eq_of_toNat_eq h)

/-- Settles O13: a raise writes its code and ESTICKY, and a commit leaves ESTICKY alone. -/
theorem commandSucceedsOrRaises : Obligations.CommandSucceedsOrRaises := by
  unfold Obligations.CommandSucceedsOrRaises
  intro i s
  rcases exec_cases i s with ⟨e, he⟩ | ⟨c, hc, he⟩
  · exact ⟨_, he, .inr ⟨errorBits e, one_le_errorBits e, errorBits_le_five e, rfl⟩⟩
  · obtain ⟨hsticky, -⟩ := hc.esticky_eq_and_keyValid
    exact ⟨_, he, .inl ⟨rfl, hsticky⟩⟩

end Sys2Proof.Machine
end

section
/-!
Proof that `VLD` loads its sequence exactly: the length write makes room, and each element write
extends the part already loaded. The argument is made once, for a vector register given by what a step
does with its two kinds of write.
-/
namespace Sys2Proof.Machine

/-- A step performs an admitted register write and answers it (R52, R60, R14). -/
theorem step_of_portWrite {s t : State} {p : Port} {d : Word} {rest : List HostEvent}
    (hp : s.pending = .write (addressOf p) d :: rest) (h : PortWrite d (setPending rest s) p t) :
    step s = .next (respond .written t) := by
  rw [step_of_pending_write hp, h.hostWrite_eq, answered]

/-- A vector register that the host can load: `hold xs es rs` is the state in which it is `xs`, with
`es` pending and `rs` answered, and a step performs a write to its length or to an element (R52). -/
structure Loadable (len : Port) (element : Fin 16 → Port)
    (hold : List Word → List HostEvent → List Response → State) : Prop where
  step_len : ∀ (d : Word) (xs : List Word) (es : List HostEvent) (rs : List Response),
    0 ≤ d.toInt ∧ d.toInt ≤ 16 →
    step (hold xs (.write (addressOf len) d :: es) rs) =
      .next (hold (resize xs d.toInt.toNat) es (rs ++ [.written]))
  step_element : ∀ (i : Fin 16) (d : Word) (xs : List Word) (es : List HostEvent)
    (rs : List Response), i < xs.length →
    step (hold xs (.write (addressOf (element i)) d :: es) rs) =
      .next (hold (xs.set i d) es (rs ++ [.written]))

/-- `s` with VA, the queue and the answers replaced. -/
def holdVa (s : State) (xs : List Word) (es : List HostEvent) (rs : List Response) : State :=
  { s with va := xs, pending := es, responses := rs }

/-- `s` with VB, the queue and the answers replaced. -/
def holdVb (s : State) (xs : List Word) (es : List HostEvent) (rs : List Response) : State :=
  { s with vb := xs, pending := es, responses := rs }

theorem loadable_va (s : State) : Loadable .vaLen .va (holdVa s) where
  step_len _ _ _ _ hd := step_of_portWrite rfl (.vaLen hd)
  step_element i d xs es rs hi :=
    step_of_portWrite (s := holdVa s xs (.write (addressOf (.va i)) d :: es) rs) rfl (.va i hi)

theorem loadable_vb (s : State) : Loadable .vbLen .vb (holdVb s) where
  step_len _ _ _ _ hd := step_of_portWrite rfl (.vbLen hd)
  step_element i d xs es rs hi :=
    step_of_portWrite (s := holdVb s xs (.write (addressOf (.vb i)) d :: es) rs) rfl (.vb i hi)

section
variable {len : Port} {element : Fin 16 → Port}
  {hold : List Word → List HostEvent → List Response → State}

/-- The first of the element writes of `VLD`, at a position inside the map (R80). -/
theorem scriptEvents_elementWrites_cons {i : Nat} (hi : i < 16) (b : Int) (bs : List Int) :
    scriptEvents (elementWrites element i (b :: bs)) =
      .write (addressOf (element ⟨i, hi⟩)) (bitsW b) ::
        scriptEvents (elementWrites element (i + 1) bs) := by
  simp [scriptEvents, elementWrites, hi, stmtEvent]

/-- The element writes, from the position after the part `loaded`, replace what is `left` by `bs`. -/
theorem Loadable.runSteps_elementWrites (h : Loadable len element hold) (bs : List Int)
    (loaded left : List Word) (rest : List HostEvent) (rs : List Response)
    (hleft : left.length = bs.length) (h16 : loaded.length + bs.length ≤ 16) :
    runSteps bs.length
        (hold (loaded ++ left) (scriptEvents (elementWrites element loaded.length bs) ++ rest) rs) =
      .next (hold (loaded ++ bs.map bitsW) rest (rs ++ List.replicate bs.length .written)) := by
  induction bs generalizing loaded left rs with
  | nil =>
    obtain rfl := List.length_eq_zero_iff.1 hleft
    simp [runSteps, elementWrites, scriptEvents]
  | cons b bs ih =>
    obtain ⟨x, left, rfl⟩ := List.exists_cons_of_length_eq_add_one hleft
    simp only [List.length_cons, Nat.add_right_cancel_iff] at hleft h16 ⊢
    have hi : loaded.length < 16 := by omega
    have hstep := h.step_element ⟨loaded.length, hi⟩ (bitsW b) (loaded ++ x :: left)
      (scriptEvents (elementWrites element (loaded.length + 1) bs) ++ rest) rs (by simp)
    have hset :
        (loaded ++ x :: left).set loaded.length (bitsW b) = (loaded ++ [bitsW b]) ++ left := by
      simp
    have hlast := ih (loaded ++ [bitsW b]) left (rs ++ [.written]) hleft (by simp; omega)
    rw [scriptEvents_elementWrites_cons hi, List.cons_append, runSteps_next hstep, hset]
    simpa [List.replicate_succ] using hlast

/-- `VLD`: its transactions replace the register's content by `bs`, whatever it was (R80). -/
theorem Loadable.runSteps_load (h : Loadable len element hold) {bs : List Int}
    (h16 : bs.length ≤ 16) (xs : List Word) (rest : List HostEvent) (rs : List Response) :
    runSteps (bs.length + 1)
        (hold xs (scriptEvents (.wr len bs.length :: elementWrites element 0 bs) ++ rest) rs) =
      .next (hold (bs.map bitsW) rest (rs ++ List.replicate (bs.length + 1) .written)) := by
  have hint : (bitsW bs.length).toInt = bs.length := toInt_bitsW (by rw [fitsWord_iff]; omega)
  have hstep := h.step_len (bitsW bs.length) xs
    (scriptEvents (elementWrites element 0 bs) ++ rest) rs (by omega)
  have helements := h.runSteps_elementWrites bs [] (resize xs bs.length) rest (rs ++ [.written])
    (resize_length xs bs.length) (by simpa using h16)
  rw [hint, Int.toNat_natCast] at hstep
  refine (runSteps_next hstep).trans ?_
  simpa [List.replicate_succ] using helements

end

/-- Settles O56: VA and VB are each loadable, and the state is one that holds its own content. -/
theorem vectorLoadLoadsExactly : Obligations.VectorLoadLoadsExactly := by
  unfold Obligations.VectorLoadLoadsExactly
  intro s bs rest h16
  have hva := (loadable_va s).runSteps_load h16 s.va rest s.responses
  have hvb := (loadable_vb s).runSteps_load h16 s.vb rest s.responses
  refine ⟨fun hp => ?_, fun hp => ?_⟩
  · rwa [← vldVa, ← hp] at hva
  · rwa [← vldVb, ← hp] at hvb

end Sys2Proof.Machine
end

section
/-!
Proofs of the statements about the numeric commands. First the facts about `modulo` and `eea`: the
greatest common divisor, Bezout's identity and the bounds of R95, each by the recursion of R94. Then
an equation of `exec` for each case of a command's rule.
-/
namespace Sys2Proof.Machine

/-! ### The functions of R90, R92 and R94 -/

theorem modulo_nonneg (i : Int) {j : Int} (h : 1 ≤ j) : 0 ≤ modulo i j :=
  Int.emod_nonneg i (by omega)

theorem modulo_lt (i : Int) {j : Int} (h : 1 ≤ j) : modulo i j < j :=
  Int.emod_lt_of_pos i (by omega)

/-- A remainder by a register's value is read back from the register it is written to (R98). -/
theorem toInt_bitsW_modulo (v : Int) {w : Word} (h : 1 ≤ w.toInt) :
    (bitsW (modulo v w.toInt)).toInt = modulo v w.toInt :=
  toInt_bitsW (fitsWord_modulo v h)

/-- `eea` delivers the greatest common divisor (R94): the recursion is Euclid's. -/
theorem eea_gcd (a b : Nat) : (eea a b).1 = Nat.gcd a b := by
  refine eea_induction (fun a b r => r.1 = Nat.gcd a b) (fun a => ?_) (fun a b g x y _ ih => ?_) b a
  · simp
  · change g = Nat.gcd a b
    rw [Nat.gcd_comm, Nat.gcd_rec, Nat.gcd_comm]
    exact ih

/-- Bezout's identity for the coefficients of `eea` (R94). -/
theorem eea_bezout (a b : Nat) : (a : Int) * (eea a b).2.1 + b * (eea a b).2.2 = (eea a b).1 := by
  refine eea_induction (fun a b r => (a : Int) * r.2.1 + b * r.2.2 = r.1) (fun a => ?_)
    (fun a b g x y _ ih => ?_) b a
  · simp
  · have hdiv : (a : Int) = b * (a / b : Nat) + (a % b : Nat) := by
      exact_mod_cast (Nat.div_add_mod a b).symm
    change (b : Int) * x + (a % b : Nat) * y = g at ih
    change (a : Int) * y + b * (x - (a / b : Nat) * y) = g
    linear_combination ih + y * hdiv

/-- The bounds of R95 on the coefficients of `eea a b`, and what the induction needs besides: the
second coefficient is 0 in the base case. -/
structure CoefficientBounds (a b : Nat) (x y : Int) : Prop where
  fst : |x| ≤ max 1 (b : Int)
  snd : |y| ≤ max 1 (a : Int)
  base : b = 0 → y = 0

/-- The step of R94 keeps the bounds. When `b` divides `a` the new second coefficient is the old
first one; otherwise its two summands are at most `a % b` and `(a / b) * b`. -/
theorem CoefficientBounds.step {a b : Nat} {x y : Int} (hb : 1 ≤ b)
    (h : CoefficientBounds b (a % b) x y) : CoefficientBounds a b y (x - (a / b : Nat) * y) where
  fst := h.snd
  base := by omega
  snd := by
    obtain ⟨hx, hy, hbase⟩ := h
    rcases Nat.eq_zero_or_pos (a % b) with hmod | hmod
    · rw [hmod] at hx
      rw [hbase hmod, mul_zero, sub_zero]
      exact hx.trans (by omega)
    · have hy' : |y| ≤ b := by omega
      have hdiv : ((a / b : Nat) : Int) * b + (a % b : Nat) = a := by
        exact_mod_cast Nat.div_add_mod' a b
      calc |x - (a / b : Nat) * y| ≤ |x| + |(a / b : Nat) * y| := abs_sub _ _
        _ = |x| + (a / b : Nat) * |y| := by rw [abs_mul, Nat.abs_cast]
        _ ≤ (a % b : Nat) + (a / b : Nat) * b := by
          gcongr
          omega
        _ = a := by rw [add_comm, hdiv]
        _ ≤ max 1 (a : Int) := le_max_right _ _

theorem eea_coefficientBounds (a b : Nat) :
    CoefficientBounds a b (eea a b).2.1 (eea a b).2.2 :=
  eea_induction (fun a b r => CoefficientBounds a b r.2.1 r.2.2)
    (fun _ => ⟨by simp, by simp, fun _ => rfl⟩) (fun _ _ _ _ _ hb ih => ih.step hb) b a

/-- The first bound of R95. -/
theorem eea_gcd_le (a b : Nat) : (eea a b).1 ≤ max a b := by
  rw [eea_gcd]
  rcases Nat.eq_zero_or_pos b with rfl | hb
  · simp
  · exact (Nat.gcd_le_right a hb).trans (le_max_right a b)

/-- `eea_gcd` for the integers of two registers. -/
theorem eea_toNat_gcd {a b : Int} (ha : 0 ≤ a) (hb : 0 ≤ b) :
    (eea a.toNat b.toNat).1 = Int.gcd a b := by
  rw [eea_gcd, ← Int.gcd_natCast_natCast, Int.toNat_of_nonneg ha, Int.toNat_of_nonneg hb]

/-- `eea_bezout` for the integers of two registers. -/
theorem eea_toNat_bezout {a b : Int} (ha : 0 ≤ a) (hb : 0 ≤ b) :
    a * (eea a.toNat b.toNat).2.1 + b * (eea a.toNat b.toNat).2.2 = (eea a.toNat b.toNat).1 := by
  have h := eea_bezout a.toNat b.toNat
  rwa [Int.toNat_of_nonneg ha, Int.toNat_of_nonneg hb] at h

/-- The bounds of R95, for the integers of two registers. -/
theorem eea_toNat_bounds {a b : Int} (ha : 0 ≤ a) (hb : 0 ≤ b) :
    ((eea a.toNat b.toNat).1 : Int) ≤ max a b ∧ |(eea a.toNat b.toNat).2.1| ≤ max 1 b ∧
      |(eea a.toNat b.toNat).2.2| ≤ max 1 a := by
  have hg := eea_gcd_le a.toNat b.toNat
  obtain ⟨hx, hy, -⟩ := eea_coefficientBounds a.toNat b.toNat
  rw [Int.toNat_of_nonneg hb] at hx
  rw [Int.toNat_of_nonneg ha] at hy
  exact ⟨by omega, hx, hy⟩

/-- R95: the triple of two registers' values fits the result registers. -/
theorem fitsWord_eea {v w : Word} (hv : 0 ≤ v.toInt) (hw : 0 ≤ w.toInt) :
    fitsWord (eea v.toInt.toNat w.toInt.toNat).1 = true ∧
      fitsWord (eea v.toInt.toNat w.toInt.toNat).2.1 = true ∧
      fitsWord (eea v.toInt.toNat w.toInt.toNat).2.2 = true := by
  have hv' := (fitsWord_iff _).1 (fitsWord_toInt v)
  have hw' := (fitsWord_iff _).1 (fitsWord_toInt w)
  obtain ⟨hg, hx, hy⟩ := eea_toNat_bounds hv hw
  rw [abs_le] at hx hy
  simp only [fitsWord_iff]
  omega

/-- R96: the first coefficient, reduced, is the inverse of a number prime to the modulus. -/
theorem mul_modulo_eq_one_of_bezout {a m x y : Int} (h : modulo a m * x + m * y = 1) :
    a * modulo x m % m = 1 % m := by
  have hred : a * modulo x m ≡ modulo a m * x [ZMOD m] :=
    (Int.mod_modEq a m).symm.mul (Int.mod_modEq x m)
  have hone : modulo a m * x ≡ 1 [ZMOD m] := by
    rw [← h]
    exact (Int.modEq_add_fac_self ..).symm
  exact hred.trans hone

/-! ### What the commands do in each case of their rules -/

theorem exec_mod_raises {s : State} (h : s.opb.toInt < 1) : exec .mod s = raise .domain s :=
  if_pos h

theorem exec_mod_succeeds {s : State} (h : 1 ≤ s.opb.toInt) :
    exec .mod s = succeed (setRes0 (bitsW (modulo s.opa.toInt s.opb.toInt))) s :=
  if_neg (by omega)

theorem exec_modexp_raises {s : State} (h : s.opb.toInt < 0 ∨ s.opc.toInt < 1) :
    exec .modexp s = raise .domain s := by
  simp only [exec, execModexp]
  split
  · rfl
  · exact if_pos (h.resolve_left ‹_›)

theorem exec_modexp_succeeds {s : State} (hb : 0 ≤ s.opb.toInt) (hc : 1 ≤ s.opc.toInt) :
    exec .modexp s =
      succeed (setRes0 (bitsW (modulo (s.opa.toInt ^ s.opb.toInt.toNat) s.opc.toInt))) s := by
  simp only [exec, execModexp]
  rw [if_neg (by omega), if_neg (by omega), modexp_eq_modulo_pow _ _ _ hc]

theorem exec_eea_raises {s : State} (h : s.opa.toInt < 0 ∨ s.opb.toInt < 0) :
    exec .eea s = raise .domain s :=
  if_pos h

/-- With operands that are not negative EEA succeeds: its second check does not fire (R95). -/
theorem exec_eea_succeeds {s : State} (ha : 0 ≤ s.opa.toInt) (hb : 0 ≤ s.opb.toInt) :
    exec .eea s = succeed (setResults (bitsW (eea s.opa.toInt.toNat s.opb.toInt.toNat).1)
      (bitsW (eea s.opa.toInt.toNat s.opb.toInt.toNat).2.1)
      (bitsW (eea s.opa.toInt.toNat s.opb.toInt.toNat).2.2)) s := by
  obtain ⟨hg, hx, hy⟩ := fitsWord_eea ha hb
  simp only [exec, execEea, hg, hx, hy]
  exact if_neg (by omega)

theorem exec_modinv_raises {s : State}
    (h : s.opb.toInt < 1 ∨ Int.gcd (s.opa.toInt % s.opb.toInt) s.opb.toInt ≠ 1) :
    exec .modinv s = raise .domain s := by
  simp only [exec, execModinv]
  split
  · rfl
  · have hb : 1 ≤ s.opb.toInt := by omega
    rw [eea_toNat_gcd (modulo_nonneg _ hb) (by omega)]
    exact if_pos (h.resolve_left ‹_›)

theorem exec_modinv_succeeds {s : State} (hb : 1 ≤ s.opb.toInt)
    (hgcd : Int.gcd (s.opa.toInt % s.opb.toInt) s.opb.toInt = 1) :
    exec .modinv s = succeed (setRes0 (bitsW (modulo
      (eea (modulo s.opa.toInt s.opb.toInt).toNat s.opb.toInt.toNat).2.1 s.opb.toInt))) s := by
  have hg := (eea_toNat_gcd (modulo_nonneg s.opa.toInt hb) (by omega)).trans hgcd
  simp only [exec, execModinv]
  rw [if_neg (by omega), if_neg (not_not.2 hg)]

/-! ### The statements -/

/-- Settles O27: the remainder is in its range, and a register holds it. -/
theorem modDeliversTheRemainder : Obligations.ModDeliversTheRemainder := by
  unfold Obligations.ModDeliversTheRemainder
  refine ⟨decode_encode .mod, fun s => ⟨exec_mod_raises, fun h => ?_⟩⟩
  exact ⟨modulo s.opa.toInt s.opb.toInt, modulo_nonneg _ h, modulo_lt _ h,
    Int.dvd_self_sub_emod, exec_mod_succeeds h, toInt_bitsW_modulo _ h⟩

/-- Settles O28: square-and-multiply computes the power reduced, and a register holds it. -/
theorem modexpDeliversThePower : Obligations.ModexpDeliversThePower := by
  unfold Obligations.ModexpDeliversThePower
  refine ⟨decode_encode .modexp, fun s => ⟨exec_modexp_raises, fun hb hc => ?_⟩⟩
  exact ⟨modulo (s.opa.toInt ^ s.opb.toInt.toNat) s.opc.toInt, rfl, modulo_nonneg _ hc,
    modulo_lt _ hc, exec_modexp_succeeds hb hc, toInt_bitsW_modulo _ hc⟩

/-- Settles O29: both sides are powers reduced, and a factor may be reduced before multiplying. -/
theorem modexpIsRepeatedMultiplication : Obligations.ModexpIsRepeatedMultiplication := by
  unfold Obligations.ModexpIsRepeatedMultiplication
  intro b m hm
  have hpow (k : Nat) : modexp b k m = modulo (b ^ k) m := modexp_eq_modulo_pow b k m hm
  refine ⟨by simpa using hpow 0, fun k => ?_⟩
  calc modexp b ((k : Int) + 1) m
    _ = modulo (b ^ k * b) m := by rw [← pow_succ]; exact hpow (k + 1)
    _ = modulo (modulo (b ^ k) m * b) m :=
      ((Int.mod_modEq (b ^ k) m).mul_right b).symm
    _ = modulo (modexp b k m * b) m := by rw [hpow k]

/-- Settles O30: the two equations are `eea`'s own, and by the bounds its triple fits. -/
theorem eeaDeliversTheTriple : Obligations.EeaDeliversTheTriple := by
  unfold Obligations.EeaDeliversTheTriple
  refine ⟨decode_encode .eea, eea_zero, fun a b g x y hb h => by rw [eea_step a b hb, h],
    fun s => ⟨exec_eea_raises, fun ha hb => ?_⟩⟩
  obtain ⟨hg, hx, hy⟩ := eea_toNat_bounds ha hb
  obtain ⟨hgw, hxw, hyw⟩ := fitsWord_eea ha hb
  exact ⟨_, _, _, rfl, hg, hx, hy, exec_eea_succeeds ha hb, toInt_bitsW hgw, toInt_bitsW hxw,
    toInt_bitsW hyw⟩

/-- Settles O31: without an error the registers hold the triple, which satisfies both claims. -/
theorem eeaSatisfiesBezout : Obligations.EeaSatisfiesBezout := by
  unfold Obligations.EeaSatisfiesBezout
  intro s t h herr
  by_cases hneg : s.opa.toInt < 0 ∨ s.opb.toInt < 0
  · rw [exec_eea_raises hneg, raise_eq] at h
    cases h
    exact absurd herr (errorBits_ne_zero .domain)
  · have ha : 0 ≤ s.opa.toInt := by omega
    have hb : 0 ≤ s.opb.toInt := by omega
    obtain ⟨hg, hx, hy⟩ := fitsWord_eea ha hb
    rw [exec_eea_succeeds ha hb, succeed_eq] at h
    cases h
    simp only [clearErr, setResults, toInt_bitsW hg, toInt_bitsW hx, toInt_bitsW hy]
    exact ⟨eea_toNat_bezout ha hb, congrArg Nat.cast (eea_toNat_gcd ha hb)⟩

/-- Settles O32: the inverse is the reduced coefficient of Bezout's identity, as the gcd is 1. -/
theorem modinvDeliversTheInverse : Obligations.ModinvDeliversTheInverse := by
  unfold Obligations.ModinvDeliversTheInverse
  refine ⟨decode_encode .modinv, fun s => ⟨exec_modinv_raises, fun hb hgcd => ?_⟩⟩
  have ha := modulo_nonneg s.opa.toInt hb
  have hb' : 0 ≤ s.opb.toInt := by omega
  have hbezout := eea_toNat_bezout ha hb'
  rw [(eea_toNat_gcd ha hb').trans hgcd, Nat.cast_one] at hbezout
  exact ⟨_, modulo_nonneg _ hb, modulo_lt _ hb, mul_modulo_eq_one_of_bezout hbezout,
    exec_modinv_succeeds hb hgcd, toInt_bitsW_modulo _ hb⟩

end Sys2Proof.Machine
end

section
/-!
Proofs of the statements about the bit-vector commands. First the laws of `vxor`, `rotl` and `permute`
that they turn on and R116's check as a statement about integers, then an equation of `exec` for each
case of a command's rule, and last the key schedule by its halves (R119, R131).
-/
namespace Sys2Proof.Machine

/-! ### The functions of R110, R112, R114 and R116 -/

/-- R110 for a table of integers: the element at `i` is the one at the position that entry `i` names. -/
theorem permute_map_toNat_getElem? {xs : List Word} {t : List Int} {i : Nat} {e : Int}
    (hi : t[i]? = some e) (he : 1 ≤ e ∧ e ≤ xs.length) :
    (permute xs (t.map Int.toNat))[i]? = xs[(e - 1).toNat]? := by
  have hlt : (e - 1).toNat < xs.length := by omega
  have hpos : e.toNat - 1 = (e - 1).toNat := by omega
  rw [permute_getElem?, List.getElem?_map, hi, Option.map_some, Option.map_some, hpos,
    List.getD_eq_getElem _ _ hlt, List.getElem?_eq_getElem hlt]

theorem vxor_vxor_cancel_right {a b : List Word} (h : a.length = b.length) :
    vxor (vxor a b) b = a :=
  List.ext_getElem (by simp [vxor_length, h]) fun i _ _ => by simp [vxor]

theorem vxor_self (a : List Word) : vxor a a = List.replicate a.length 0#32 := by
  simp [vxor, List.zipWith_self, List.map_const']

theorem isBits_iff_toInt (s : List Word) :
    isBits s = true ↔ ∀ e ∈ s, e.toInt = 0 ∨ e.toInt = 1 := by
  have hword (e v : Word) : e = v ↔ e.toInt = v.toInt := BitVec.toInt_inj.symm
  simp only [isBits_iff, hword]
  rfl

/-- The lengths of VA that a fixed table admits (R111): its greatest entry and beyond. -/
theorem fixedTable_inRange_iff {sel : TableSel} {n : Nat}
    (h : (sel, n) ∈ [(TableSel.p10, 10), (.p8, 10), (.ip, 8), (.ipinv, 8), (.ep, 4), (.p4, 4)])
    (s : State) (len : Nat) :
    (∀ e ∈ selectedTable defaultTables sel s, 1 ≤ e ∧ e ≤ (len : Int)) ↔ n ≤ len := by
  fin_cases h <;> simp [selectedTable, defaultTables] <;> omega

/-! ### What the commands do in each case of their rules -/

theorem exec_vperm_raises {sel : TableSel} {s : State}
    (h : ¬ ∀ e ∈ selectedTable defaultTables sel s, 1 ≤ e ∧ e ≤ (s.va.length : Int)) :
    exec (.vperm sel) s = raise .bounds s :=
  if_neg (mt (entriesInRange_iff _ _).1 h)

theorem exec_vperm_succeeds {sel : TableSel} {s : State}
    (h : ∀ e ∈ selectedTable defaultTables sel s, 1 ≤ e ∧ e ≤ (s.va.length : Int)) :
    exec (.vperm sel) s =
      succeed (setVr (permute s.va ((selectedTable defaultTables sel s).map Int.toNat))) s :=
  if_pos ((entriesInRange_iff _ _).2 h)

theorem exec_vrotl_raises {s : State} (h : s.opa.toInt < 0) : exec .vrotl s = raise .bounds s :=
  if_pos h

theorem exec_vrotl_succeeds {s : State} (h : 0 ≤ s.opa.toInt) :
    exec .vrotl s = succeed (setVr (rotl s.va s.opa.toInt.toNat)) s :=
  if_neg (by omega)

theorem exec_vxor_raises {s : State} (h : s.va.length ≠ s.vb.length) :
    exec .vxor s = raise .bounds s :=
  if_pos h

theorem exec_vxor_succeeds {s : State} (h : s.va.length = s.vb.length) :
    exec .vxor s = succeed (setVr (vxor s.va s.vb)) s :=
  if_neg (not_not.2 h)

theorem exec_visbit_true {s : State} (h : isBits s.va = true) :
    exec .visbit s = succeed (setRes0 1#32) s := by
  simp only [exec, execVisbit, h, if_true]

theorem exec_visbit_false {s : State} (h : ¬ isBits s.va = true) :
    exec .visbit s = succeed (setRes0 0#32) s := by
  simp only [exec, execVisbit, if_neg h]

theorem exec_sdkey_succeeds {s : State} (h : validBits s.va Config.keyLen = true) :
    exec .sdkey s = succeed (setKeys (packSubkey (sdesKeys defaultTables s.va).1)
      (packSubkey (sdesKeys defaultTables s.va).2)) s :=
  if_pos h

/-! ### The statements about single commands -/

/-- Settles O33: the table written out is the one the selector selects, and VPERM permutes by it or
raises. -/
theorem vpermDeliversThePermutation : Obligations.VpermDeliversThePermutation := by
  unfold Obligations.VpermDeliversThePermutation
  intro sel s table
  have htable : table = selectedTable defaultTables sel s := by cases sel <;> rfl
  clear_value table
  subst htable
  refine ⟨fun ⟨e, he, hout⟩ => exec_vperm_raises fun hin => ?_, fun hin => ?_⟩
  · have := hin e he
    omega
  · exact ⟨_, by simp, fun i e hi => permute_map_toNat_getElem? hi (hin e (List.mem_of_getElem? hi)),
      exec_vperm_succeeds hin⟩

/-- Settles O34: VPERM succeeds exactly if the table's entries are positions of VA, that is from the
greatest entry on. -/
theorem fixedTableMinimumLengths : Obligations.FixedTableMinimumLengths := by
  unfold Obligations.FixedTableMinimumLengths
  intro s sel n hmem
  rw [← fixedTable_inRange_iff hmem s]
  refine ⟨fun ⟨t, hexec, herr⟩ => ?_, fun hin => ⟨_, exec_vperm_succeeds hin, rfl⟩⟩
  by_contra hout
  rw [exec_vperm_raises hout, raise_eq] at hexec
  cases hexec
  exact errorBits_ne_zero .bounds herr

/-- Settles O35: VROTL delivers `rotl`, whose elements are those of R112's index formula. -/
theorem vrotlDeliversTheRotation : Obligations.VrotlDeliversTheRotation := by
  unfold Obligations.VrotlDeliversTheRotation
  exact ⟨decode_encode .vrotl, fun s => ⟨exec_vrotl_raises, fun h =>
    ⟨_, rotl_length _ _, rotl_getElem? _ _, exec_vrotl_succeeds h⟩⟩⟩

/-- Settles O36: `rotl` is the library's rotation, which has both laws. -/
theorem rotationsAddUp : Obligations.RotationsAddUp := by
  unfold Obligations.RotationsAddUp
  intro s d e
  simp only [rotl_eq_rotate]
  exact ⟨List.rotate_rotate s d e, List.rotate_length s⟩

/-- Settles O37: VXOR delivers `vxor`, whose elements are the exclusive-or of the two words. -/
theorem vxorDeliversTheXor : Obligations.VxorDeliversTheXor := by
  unfold Obligations.VxorDeliversTheXor
  refine ⟨decode_encode .vxor, fun s => ⟨exec_vxor_raises, fun h => ?_⟩⟩
  refine ⟨_, by simp [vxor_length, h], fun i a b ha hb => ?_, exec_vxor_succeeds h⟩
  obtain ⟨hia, rfl⟩ := List.getElem?_eq_some_iff.1 ha
  obtain ⟨hib, rfl⟩ := List.getElem?_eq_some_iff.1 hb
  exact vxor_getElem? _ _ i hia hib

/-- Settles O38: word by word the exclusive-or undoes itself. -/
theorem xorUndoesItself : Obligations.XorUndoesItself := by
  unfold Obligations.XorUndoesItself
  exact fun a b h => ⟨vxor_vxor_cancel_right h, vxor_self a⟩

/-- Settles O39: the answer is R116's check on VA, read as integers. -/
theorem visbitAnswersWhetherBits : Obligations.VisbitAnswersWhetherBits := by
  unfold Obligations.VisbitAnswersWhetherBits
  refine ⟨decode_encode .visbit, fun s => ⟨fun h => exec_visbit_true ((isBits_iff_toInt _).2 h),
    fun ⟨e, he, h0, h1⟩ => exec_visbit_false fun h => ?_⟩⟩
  exact ((isBits_iff_toInt _).1 h e he).elim h0 h1

/-! ### The key schedule by its halves (R119, R131) -/

theorem exec_vperm_p10 {s : State} (h : s.va.length = 10) :
    exec (.vperm .p10) s = succeed (setVr (permute s.va defaultTables.p10)) s :=
  exec_vperm_succeeds ((fixedTable_inRange_iff (by decide) s _).2 h.ge)

theorem exec_vperm_p8 {s : State} (h : s.va.length = 10) :
    exec (.vperm .p8) s = succeed (setVr (permute s.va defaultTables.p8)) s :=
  exec_vperm_succeeds ((fixedTable_inRange_iff (by decide) s _).2 h.ge)

theorem slice_five_ten {p : List Word} (h : p.length = 10) : slice p 5 10 = p.drop 5 :=
  List.take_of_length_le (by simp [h])

/-- R131 with the halves of the permuted key as its first five elements and the rest. -/
theorem sdesKeys_eq_halves (k : List Word) :
    sdesKeys defaultTables k =
      let p := permute k defaultTables.p10
      let l1 := rotl (p.take 5) 1
      let r1 := rotl (p.drop 5) 1
      (permute (l1 ++ r1) defaultTables.p8, permute (rotl l1 2 ++ rotl r1 2) defaultTables.p8) := by
  have hlen : (permute k defaultTables.p10).length = 10 := permute_length _ _
  simp only [sdesKeys, slice_five_ten hlen]
  rfl

/-- The subkey registers give back the subkeys of an accepted key (R31, R131). -/
theorem subkeySeq_packSubkey_sdesKeys {k : List Word} (h : isBits k = true) :
    subkeySeq (packSubkey (sdesKeys defaultTables k).1) = (sdesKeys defaultTables k).1 ∧
      subkeySeq (packSubkey (sdesKeys defaultTables k).2) = (sdesKeys defaultTables k).2 := by
  obtain ⟨hlen1, hlen2⟩ := sdesKeys_length defaultTables k
  obtain ⟨hbits1, hbits2⟩ := isBits_sdesKeys defaultTables h
  exact ⟨subkeySeq_packSubkey ((validBits_iff _ _).2 ⟨hlen1, hbits1⟩),
    subkeySeq_packSubkey ((validBits_iff _ _).2 ⟨hlen2, hbits2⟩)⟩

/-- What a BPU command leaves alone by R119, the loaded key (R26, R31), and ESTICKY with it. -/
def keyAndSticky (s : State) : BitVec 8 × BitVec 8 × Bool × Bool :=
  (s.k1, s.k2, s.keyValid, s.esticky)

/-- What a command leaves when it delivers `xs` in VR: the key is undisturbed (R119). -/
theorem exec_deliversVr {i : Instr} {s : State} {xs : List Word}
    (h : exec i s = succeed (setVr xs) s) :
    ∃ t, exec i s = .next t ∧ t.err = 0#4 ∧ t.vr = xs ∧ t.opa = s.opa ∧
      keyAndSticky t = keyAndSticky s :=
  ⟨_, h, rfl, rfl, rfl, rfl⟩

/-- One round of the key schedule on the BPU: VROTL of each half by `d`, then VPERM P8 of the two. -/
theorem exec_keyRound (s : State) {a b : List Word} (hab : a.length + b.length = 10)
    {d : Word} (hd : 0 ≤ d.toInt) :
    ∃ l r c : State,
      (exec .vrotl { s with va := a, opa := d } = .next l ∧ l.err = 0#4) ∧
      (exec .vrotl { l with va := b } = .next r ∧ r.err = 0#4) ∧
      (exec (.vperm .p8) { r with va := l.vr ++ r.vr } = .next c ∧ c.err = 0#4) ∧
      l.vr = rotl a d.toInt.toNat ∧ r.vr = rotl b d.toInt.toNat ∧
      c.vr = permute (l.vr ++ r.vr) defaultTables.p8 ∧ keyAndSticky c = keyAndSticky s := by
  obtain ⟨l, hl, hlErr, hlVr, hlOpa, hlKey⟩ :=
    exec_deliversVr (exec_vrotl_succeeds (s := { s with va := a, opa := d }) hd)
  obtain rfl : l.opa = d := hlOpa
  obtain ⟨r, hr, hrErr, hrVr, -, hrKey⟩ :=
    exec_deliversVr (exec_vrotl_succeeds (s := { l with va := b }) hd)
  have hlen : (l.vr ++ r.vr).length = 10 := by simpa [hlVr, hrVr] using hab
  obtain ⟨c, hc, hcErr, hcVr, -, hcKey⟩ :=
    exec_deliversVr (exec_vperm_p8 (s := { r with va := l.vr ++ r.vr }) hlen)
  exact ⟨l, r, c, ⟨hl, hlErr⟩, ⟨hr, hrErr⟩, ⟨hc, hcErr⟩, hlVr, hrVr, hcVr,
    hcKey.trans (hrKey.trans hlKey)⟩

/-- Settles O47: SDKEY and VPERM P10 succeed, and the two rounds deliver R131's subkeys by halves,
which the subkey registers give back. -/
theorem keyScheduleOnTheBpuAgrees : Obligations.KeyScheduleOnTheBpuAgrees := by
  unfold Obligations.KeyScheduleOnTheBpuAgrees
  intro s hlen hbits
  have hisBits := (isBits_iff_toInt _).2 hbits
  obtain ⟨hsub1, hsub2⟩ := subkeySeq_packSubkey_sdesKeys hisBits
  obtain ⟨k, hk, hkErr, hkVa, hk1, hk2, hkValid, hkSticky⟩ :
      ∃ k, exec .sdkey s = .next k ∧ k.err = 0#4 ∧ k.va = s.va ∧
        k.k1 = packSubkey (sdesKeys defaultTables s.va).1 ∧
        k.k2 = packSubkey (sdesKeys defaultTables s.va).2 ∧
        k.keyValid = true ∧ k.esticky = s.esticky :=
    ⟨_, exec_sdkey_succeeds ((validBits_iff _ _).2 ⟨hlen, hisBits⟩), rfl, rfl, rfl, rfl, rfl, rfl⟩
  obtain ⟨p, hp, hpErr, hpVr, -, hpKey⟩ := exec_deliversVr (exec_vperm_p10 (hkVa ▸ hlen))
  rw [hkVa] at hpVr
  have hpLen : p.vr.length = 10 := by simp [hpVr, defaultTables]
  obtain ⟨l1, r1, c1, ⟨hl1, hl1Err⟩, ⟨hr1, hr1Err⟩, ⟨hc1, hc1Err⟩, hl1Vr, hr1Vr, hc1Vr, hc1Key⟩ :=
    exec_keyRound p (a := p.vr.take 5) (b := p.vr.drop 5) (by simp [hpLen]) (d := 1#32) (by decide)
  obtain ⟨l3, r3, c2, ⟨hl3, hl3Err⟩, ⟨hr3, hr3Err⟩, ⟨hc2, hc2Err⟩, hl3Vr, hr3Vr, hc2Vr, hc2Key⟩ :=
    exec_keyRound c1 (a := l1.vr) (b := r1.vr) (by simp [hl1Vr, hr1Vr, hpLen]) (d := 2#32)
      (by decide)
  have hkey := hc2Key.trans (hc1Key.trans hpKey)
  simp only [keyAndSticky, Prod.mk.injEq] at hkey
  obtain ⟨hkeepK1, hkeepK2, hkeepValid, hkeepSticky⟩ := hkey
  refine ⟨k, p, l1, r1, c1, l3, r3, c2, hk, hkErr, hp, hpErr, hl1, hl1Err, hr1, hr1Err, hc1, hc1Err,
    hl3, hl3Err, hr3, hr3Err, hc2, hc2Err, ?_, ?_, hkeepK1, hkeepK2, hkeepValid.trans hkValid,
    hkeepSticky.trans hkSticky⟩
  · rw [hk1, hsub1, sdesKeys_eq_halves, hc1Vr, hl1Vr, hr1Vr, hpVr]
    rfl
  · rw [hk2, hsub2, sdesKeys_eq_halves, hc2Vr, hl3Vr, hr3Vr, hl1Vr, hr1Vr, hpVr]
    rfl

end Sys2Proof.Machine
end

section
/-!
Proofs of the statements about the S-DES commands. First the frame and the two outcomes of SDKEY, then
the laws of the block transform for every well-formed `TABLES` (R133 to R136, R142), and last SDENC and
SDDEC, whose common shape is one result and its delivery in VR.
-/
namespace Sys2Proof.Machine

/-- R141 as a statement about integers, in both directions. -/
theorem validBits_iff_toInt (s : List Word) (n : Nat) :
    validBits s n = true ↔ s.length = n ∧ ∀ e ∈ s, e.toInt = 0 ∨ e.toInt = 1 := by
  rw [validBits_iff, isBits_iff_toInt]

/-! ### SDKEY (R131, R132) -/

/-- SDKEY raises, or writes the subkeys and KEYVALID alone and clears `ERR`. -/
theorem exec_sdkey_next {s t : State} (h : exec .sdkey s = .next t) :
    (∃ e, t = markError e s) ∨ ∃ a b, t = clearErr (setKeys a b s) := by
  refine (exec_next h).imp_right ?_
  rintro ⟨c, hc, rfl⟩
  cases hc with
  | keys => exact ⟨_, _, rfl⟩
  | res0 i v hi => simp at hi
  | vr i xs hi => simp at hi

/-- The subkeys and STATUS show at addresses 0x08, 0x09 and 0x01 alone. -/
theorem hostRead_keys_frame (s : State) (k1 k2 : BitVec 8) (valid : Bool) (err : BitVec 4)
    (sticky : Bool) {a : Nat} (hstatus : a ≠ 0x01) (hk1 : a ≠ 0x08) (hk2 : a ≠ 0x09) :
    hostRead a { s with k1 := k1, k2 := k2, keyValid := valid, err := err, esticky := sticky } =
      hostRead a s := by
  apply hostRead_congr
  rintro p rfl
  cases p with
  | cmd => trivial
  | status => exact absurd rfl hstatus
  | k1 => exact absurd rfl hk1
  | k2 => exact absurd rfl hk2
  | _ => rfl

/-- Settles O18: SDKEY raises or writes the key, and the two forms have the frame's shape. -/
theorem keyLoadFrame : Obligations.KeyLoadFrame := by
  unfold Obligations.KeyLoadFrame
  intro s t h
  rcases exec_sdkey_next h with ⟨e, rfl⟩ | ⟨a, b, rfl⟩ <;>
    exact ⟨rfl, fun _ => hostRead_keys_frame s _ _ _ _ _⟩

theorem exec_sdkey_raises {s : State} (h : ¬ validBits s.va Config.keyLen = true) :
    exec .sdkey s = raise .invalidArgument s :=
  if_neg h

/-- Settles O40: the subkey registers hold R131's subkeys, and the second one's two rotations, by 1 and
by 2, add up. -/
theorem sdkeyDerivesTheSubkeys : Obligations.SdkeyDerivesTheSubkeys := by
  unfold Obligations.SdkeyDerivesTheSubkeys
  refine ⟨decode_encode .sdkey, fun s => ⟨fun hn => ?_, fun hlen hbits => ?_⟩⟩
  · exact exec_sdkey_raises (mt (validBits_iff_toInt _ _).1 hn)
  · obtain ⟨hsub1, hsub2⟩ := subkeySeq_packSubkey_sdesKeys ((isBits_iff_toInt _).2 hbits)
    have hrot (h : List Word) : rotl (rotl h 1) 2 = rotl h 3 := (rotationsAddUp h 1 2).1
    refine ⟨packSubkey _, packSubkey _,
      exec_sdkey_succeeds ((validBits_iff_toInt _ _).2 ⟨hlen, hbits⟩), ?_, ?_⟩
    · rw [hsub1, sdesKeys_eq_halves]
    · rw [hsub2, sdesKeys_eq_halves]
      simp only [hrot]

/-! ### The round function (R133, R134) -/

/-- R133 for an entry that is there: row from the outer bits, column from the inner ones. -/
theorem sbox_eq_of_lookup {S : List (List Nat)} {row : List Nat} {v : Nat} {a b c d : Word}
    (hrow : S[2 * a.toNat + d.toNat]? = some row) (hv : row[2 * b.toNat + c.toNat]? = some v) :
    sbox S [a, b, c, d] = [BitVec.ofNat 32 (v / 2), BitVec.ofNat 32 (v % 2)] := by
  simp [sbox, bitAt, hrow, hv]

/-- Settles O42: each box looks up its own four bits. -/
theorem roundFunctionLooksUpBothBoxes : Obligations.RoundFunctionLooksUpBothBoxes := by
  unfold Obligations.RoundFunctionLooksUpBothBoxes
  refine ⟨rfl, rfl, fun T r k t0 t1 t2 t3 t4 t5 t6 t7 u v row0 row1 ht hrow0 hu hrow1 hv => ?_⟩
  have hleft : slice [t0, t1, t2, t3, t4, t5, t6, t7] 0 4 = [t0, t1, t2, t3] := rfl
  have hright : slice [t0, t1, t2, t3, t4, t5, t6, t7] 4 8 = [t4, t5, t6, t7] := rfl
  simp only [sdesF, ht, hleft, hright, sbox_eq_of_lookup hrow0 hu, sbox_eq_of_lookup hrow1 hv]
  rfl

/-! ### Permuting forth and back (R33, R110) -/

/-- The position, from 0, that entry `i` of a table names. -/
def tablePos (t : List Nat) (i : Nat) : Nat := t.getD i 0 - 1

theorem permute_getD (s : List Word) {t : List Nat} {i : Nat} (hi : i < t.length) :
    (permute s t).getD i 0#32 = s.getD (tablePos t i) 0#32 := by
  simp [permute, tablePos, hi]

/-- Permuting by `t` and then by `u` undoes itself if `u` names where each position went. -/
theorem permute_permute_cancel {s : List Word} {t u : List Nat} (hs : u.length = s.length)
    (hu : ∀ i < u.length, tablePos u i < t.length)
    (h : ∀ i < u.length, tablePos t (tablePos u i) = i) : permute (permute s t) u = s := by
  refine List.ext_getElem (by simpa using hs) fun i hi hi' => ?_
  have hiu : i < u.length := by simpa using hi
  calc (permute (permute s t) u)[i]
    _ = (permute (permute s t) u).getD i 0#32 := (List.getD_eq_getElem _ _ hi).symm
    _ = s.getD i 0#32 := by rw [permute_getD _ hiu, permute_getD _ (hu i hiu), h i hiu]
    _ = s[i] := List.getD_eq_getElem _ _ hi'

/-- On the numbers below `n` a one-sided inverse is two-sided. -/
theorem left_inverse_below {n : Nat} {f g : Nat → Nat} (hf : ∀ i < n, f i < n)
    (hg : ∀ i < n, g i < n) (h : ∀ i < n, f (g i) = i) : ∀ i < n, g (f i) = i := by
  have hinj : Set.InjOn f (Finset.range n) :=
    Finset.injOn_of_surjOn_of_card_le f (fun i hi => by simpa using hf i (by simpa using hi))
      (fun i hi => ⟨g i, by simpa using hg i (by simpa using hi), h i (by simpa using hi)⟩) le_rfl
  intro i hi
  exact hinj (by simpa using hg _ (hf i hi)) (by simpa using hi) (h _ (hf i hi))

/-- A table of `k` entries, each a position of `n` (R33). -/
theorem permTableOk_iff (t : List Nat) (k n : Nat) :
    Config.permTableOk t k n = true ↔ t.length = k ∧ ∀ e ∈ t, 1 ≤ e ∧ e ≤ n := by
  simp [Config.permTableOk]

theorem tablePos_lt {t : List Nat} {k n i : Nat} (h : Config.permTableOk t k n = true)
    (hi : i < k) : tablePos t i < n := by
  obtain ⟨hlen, hentries⟩ := (permTableOk_iff t k n).1 h
  have hit : i < t.length := by omega
  have := hentries t[i] (List.getElem_mem hit)
  rw [tablePos, List.getD_eq_getElem _ _ hit]
  omega

theorem tablePos_tablePos_of_inverseOk {ip ipinv : List Nat}
    (h : Config.inverseOk ip ipinv = true) : ∀ i < 8, tablePos ip (tablePos ipinv i) = i := by
  intro i hi
  simp only [Config.inverseOk, List.all_eq_true, List.mem_range, beq_iff_eq] at h
  rw [tablePos, tablePos, h i hi]
  rfl

/-- What the block transform needs of a well-formed `TABLES` (R33). -/
structure BlockTables (T : Config.Tables) : Prop where
  ipLen : T.ip.length = 8
  ipinvLen : T.ipinv.length = 8
  p4Len : T.p4.length = 4
  /-- IPINV after IP. -/
  forth : ∀ {s : List Word}, s.length = 8 → permute (permute s T.ip) T.ipinv = s
  /-- IP after IPINV. -/
  back : ∀ {s : List Word}, s.length = 8 → permute (permute s T.ipinv) T.ip = s
  s0Entries : ∀ row ∈ T.s0, ∀ e ∈ row, e ≤ 3
  s1Entries : ∀ row ∈ T.s1, ∀ e ∈ row, e ≤ 3

theorem subTableOk_entries {t : List (List Nat)} (h : Config.subTableOk t = true) :
    ∀ row ∈ t, ∀ e ∈ row, e ≤ 3 := by
  simp only [Config.subTableOk, Bool.and_eq_true, List.all_eq_true, decide_eq_true_eq] at h
  exact fun row hrow => (h.2 row hrow).2

/-- R33(b) gives one composition of IP and IPINV, and counting the other. -/
theorem blockTables_of_wellFormed {T : Config.Tables} (h : T.wellFormed = true) :
    BlockTables T := by
  simp only [Config.Tables.wellFormed, Bool.and_eq_true] at h
  obtain ⟨⟨⟨⟨⟨⟨⟨⟨-, -⟩, hip⟩, hipinv⟩, -⟩, hp4⟩, hs0⟩, hs1⟩, hinv⟩ := h
  obtain ⟨hipLen, -⟩ := (permTableOk_iff _ _ _).1 hip
  obtain ⟨hipinvLen, -⟩ := (permTableOk_iff _ _ _).1 hipinv
  obtain ⟨hp4Len, -⟩ := (permTableOk_iff _ _ _).1 hp4
  have hipPos : ∀ i < 8, tablePos T.ip i < 8 := fun _ => tablePos_lt hip
  have hipinvPos : ∀ i < 8, tablePos T.ipinv i < 8 := fun _ => tablePos_lt hipinv
  have hcomp := tablePos_tablePos_of_inverseOk hinv
  have hcomp' := left_inverse_below hipPos hipinvPos hcomp
  refine ⟨hipLen, hipinvLen, hp4Len, fun hs => ?_, fun hs => ?_, subTableOk_entries hs0,
    subTableOk_entries hs1⟩
  · exact permute_permute_cancel (by omega) (by rwa [hipinvLen, hipLen]) (by rwa [hipinvLen])
  · exact permute_permute_cancel (by omega) (by rwa [hipinvLen, hipLen]) (by rwa [hipLen])

theorem blockTables_default : BlockTables defaultTables :=
  blockTables_of_wellFormed (by decide)

/-! ### The block transform (R135, R136, R142) -/

/-- The two halves of a block, L first. -/
def halves (p : List Word) : List Word × List Word := (p.take 4, p.drop 4)

/-- R136: two rounds on the halves of the permuted block, and the right half first before IPINV. -/
theorem sdesBlock_eq_rounds {T : Config.Tables} (hT : BlockTables T) (b ka kb : List Word) :
    sdesBlock T b ka kb =
      let two := sdesRound T (sdesRound T (halves (permute b T.ip)) ka) kb
      permute (two.2 ++ two.1) T.ipinv := by
  have hright : slice (permute b T.ip) 4 8 = (permute b T.ip).drop 4 :=
    List.take_of_length_le (by simp [hT.ipLen])
  simp only [sdesBlock, hright]
  rfl

theorem halves_length {p : List Word} (h : p.length = 8) :
    (halves p).1.length = 4 ∧ (halves p).2.length = 4 := by
  simp [halves, h]

/-- Halves of four elements stay so in a round. -/
theorem sdesRound_length {T : Config.Tables} (hT : BlockTables T) {lr : List Word × List Word}
    (h : lr.1.length = 4 ∧ lr.2.length = 4) (k : List Word) :
    (sdesRound T lr k).1.length = 4 ∧ (sdesRound T lr k).2.length = 4 :=
  ⟨h.2, by simp [sdesRound, vxor_length, hT.p4Len, h.1]⟩

/-- A round undoes itself on exchanged halves: the same round function value is xored twice. -/
theorem sdesRound_swap_sdesRound {T : Config.Tables} (hT : BlockTables T)
    {lr : List Word × List Word} (h : lr.1.length = 4) (k : List Word) :
    sdesRound T (sdesRound T lr k).swap k = lr.swap := by
  have hxor := vxor_vxor_cancel_right (b := sdesF T lr.2 k) (by rw [h, sdesF_length, hT.p4Len])
  exact Prod.ext rfl hxor

/-- R142: the second transform meets the exchanged halves of the first, and undoes its rounds from the
last. -/
theorem sdesBlock_sdesBlock {T : Config.Tables} (hT : BlockTables T) {b : List Word}
    (hb : b.length = 8) (ka kb : List Word) :
    sdesBlock T (sdesBlock T b ka kb) kb ka = b := by
  have hlen := halves_length (p := permute b T.ip) (by rw [permute_length, hT.ipLen])
  have hone := sdesRound_length hT hlen ka
  have htwo := sdesRound_length hT hone kb
  have hundoTwo := sdesRound_swap_sdesRound hT hone.1 kb
  have hundoOne := sdesRound_swap_sdesRound hT hlen.1 ka
  rw [sdesBlock_eq_rounds hT b]
  generalize sdesRound T (halves (permute b T.ip)) ka = one at *
  generalize sdesRound T one kb = two at *
  have hhalves : halves (two.2 ++ two.1) = two.swap := by
    simp [halves, htwo.2, Prod.swap]
  simp only [sdesBlock_eq_rounds hT (permute _ _), hT.back (s := two.2 ++ two.1) (by simp [htwo]),
    hhalves, hundoTwo, hundoOne]
  simp only [halves, Prod.fst_swap, Prod.snd_swap, List.take_append_drop]
  exact hT.forth hb

/-- Settles O43: `sdesBlock_sdesBlock`, with what a well-formed `TABLES` gives. -/
theorem blockTransformRoundTrips : Obligations.BlockTransformRoundTrips := by
  unfold Obligations.BlockTransformRoundTrips
  intro T ka kb b hT _ _ hb
  obtain ⟨hlen, -⟩ := (validBits_iff _ _).1 hb
  exact sdesBlock_sdesBlock (blockTables_of_wellFormed hT) hlen ka kb

/-- The round function delivers bits, for the boxes hold 0 to 3 (R133, R134). -/
theorem isBits_sdesF {T : Config.Tables} (hT : BlockTables T) (r k : List Word) :
    isBits (sdesF T r k) = true := by
  refine isBits_permute _ ?_
  rw [isBits_append, isBits_sbox _ hT.s0Entries, isBits_sbox _ hT.s1Entries]
  rfl

theorem isBits_sdesRound {T : Config.Tables} (hT : BlockTables T) {lr : List Word × List Word}
    (h : isBits lr.1 = true ∧ isBits lr.2 = true) (k : List Word) :
    isBits (sdesRound T lr k).1 = true ∧ isBits (sdesRound T lr k).2 = true :=
  ⟨h.2, isBits_vxor h.1 (isBits_sdesF hT _ _)⟩

/-- R136: a block of bits is transformed to a block of bits. -/
theorem validBits_sdesBlock {T : Config.Tables} (hT : BlockTables T) {b : List Word}
    (hb : isBits b = true) (ka kb : List Word) : validBits (sdesBlock T b ka kb) 8 = true := by
  have hp := isBits_permute T.ip hb
  have htwo := isBits_sdesRound hT
    (isBits_sdesRound hT (lr := (slice (permute b T.ip) 0 4, slice (permute b T.ip) 4 8))
      ⟨isBits_slice 0 4 hp, isBits_slice 4 8 hp⟩ ka) kb
  refine (validBits_iff _ _).2 ⟨by rw [sdesBlock_length, hT.ipinvLen], isBits_permute _ ?_⟩
  rw [isBits_append, Bool.and_eq_true]
  exact htwo.symm

/-! ### SDENC and SDDEC (R139, R140) -/

/-- The result of a block command with the subkeys in the order `ka`, `kb`: the block for VR, or the
error it raises, NO_KEY first (R177). -/
def blockResult (keyValid : Bool) (b ka kb : List Word) : Except ErrorCode (List Word) :=
  if keyValid = false then .error .noKey
  else if validBits b Config.blkLen then .ok (sdesBlock defaultTables b ka kb)
  else .error .invalidArgument

/-- The end of a command whose result goes to VR (R82, R171). -/
def deliver (r : Except ErrorCode (List Word)) (s : State) : Host.Outcome State Fault Refusal :=
  match r with
  | .ok xs => succeed (setVr xs) s
  | .error e => raise e s

theorem exec_sdenc (s : State) :
    exec .sdenc s =
      deliver (blockResult s.keyValid s.va (subkeySeq s.k1) (subkeySeq s.k2)) s := by
  simp only [exec, execSdenc, blockResult]
  split
  · rfl
  · split <;> rfl

theorem exec_sddec (s : State) :
    exec .sddec s =
      deliver (blockResult s.keyValid s.va (subkeySeq s.k2) (subkeySeq s.k1)) s := by
  simp only [exec, execSddec, blockResult]
  split
  · rfl
  · split <;> rfl

theorem blockResult_noKey {v : Bool} (h : v = false) (b ka kb : List Word) :
    blockResult v b ka kb = .error .noKey :=
  if_pos h

theorem blockResult_malformed {v : Bool} {b : List Word} (hv : v = true)
    (hb : ¬ validBits b Config.blkLen = true) (ka kb : List Word) :
    blockResult v b ka kb = .error .invalidArgument := by
  simp [blockResult, hv, hb]

theorem blockResult_valid {v : Bool} {b : List Word} (hv : v = true)
    (hb : validBits b Config.blkLen = true) (ka kb : List Word) :
    blockResult v b ka kb = .ok (sdesBlock defaultTables b ka kb) := by
  simp [blockResult, hv, hb]

/-- A block command that has a result has a block of bits. -/
theorem validBits_of_blockResult {v : Bool} {b ka kb xs : List Word}
    (h : blockResult v b ka kb = .ok xs) : validBits xs 8 = true := by
  unfold blockResult at h
  split at h
  · cases h
  · split at h
    · cases h
      obtain ⟨-, hbits⟩ := (validBits_iff b _).1 ‹_›
      exact validBits_sdesBlock blockTables_default hbits ka kb
    · cases h

/-- A delivery that leaves `ERR` 0 had a result, which is in VR. -/
theorem eq_ok_of_deliver {r : Except ErrorCode (List Word)} {s t : State}
    (h : deliver r s = .next t) (herr : t.err = 0#4) : r = .ok t.vr := by
  cases r with
  | ok xs =>
    cases h
    rfl
  | error e =>
    cases h
    exact absurd herr (errorBits_ne_zero e)

/-- What is delivered fixes `ERR` and, on success, VR. -/
theorem deliver_agrees {r : Except ErrorCode (List Word)} {s t s' t' : State}
    (h : deliver r s = .next t) (h' : deliver r s' = .next t') :
    t.err = t'.err ∧ (t.err = 0#4 → t.vr = t'.vr) := by
  cases r with
  | ok xs =>
    cases h
    cases h'
    exact ⟨rfl, fun _ => rfl⟩
  | error e =>
    cases h
    cases h'
    exact ⟨rfl, fun herr => absurd herr (errorBits_ne_zero e)⟩

theorem exec_sdenc_succeeds {s : State} (hkey : s.keyValid = true)
    (hb : validBits s.va Config.blkLen = true) :
    exec .sdenc s =
      succeed (setVr (sdesBlock defaultTables s.va (subkeySeq s.k1) (subkeySeq s.k2))) s := by
  rw [exec_sdenc, blockResult_valid hkey hb, deliver]

theorem exec_sddec_succeeds {s : State} (hkey : s.keyValid = true)
    (hb : validBits s.va Config.blkLen = true) :
    exec .sddec s =
      succeed (setVr (sdesBlock defaultTables s.va (subkeySeq s.k2) (subkeySeq s.k1))) s := by
  rw [exec_sddec, blockResult_valid hkey hb, deliver]

/-- Settles O41: the result in each case of R139 and R140, and the transform by its rounds. -/
theorem sdencAndSddecTransformTheBlock : Obligations.SdencAndSddecTransformTheBlock := by
  unfold Obligations.SdencAndSddecTransformTheBlock
  refine ⟨decode_encode .sdenc, decode_encode .sddec, fun s => ?_⟩
  rw [exec_sdenc, exec_sddec]
  refine ⟨fun hkey => ?_, fun hkey hn => ?_, fun hkey hblock => ?_⟩
  · simp only [blockResult_noKey hkey]
    exact ⟨rfl, rfl⟩
  · simp only [blockResult_malformed hkey (mt (validBits_iff_toInt _ _).1 hn)]
    exact ⟨rfl, rfl⟩
  · simp only [blockResult_valid hkey ((validBits_iff_toInt _ _).2 hblock),
      sdesBlock_eq_rounds blockTables_default]
    exact ⟨rfl, rfl⟩

/-- Settles O44: the first command leaves the key and a block, on which the second one succeeds, with
the subkeys exchanged. -/
theorem decryptionUndoesEncryption : Obligations.DecryptionUndoesEncryption := by
  unfold Obligations.DecryptionUndoesEncryption
  intro s hkey hlen hbits
  have hva := (validBits_iff_toInt _ _).2 ⟨hlen, hbits⟩
  have hblock := validBits_sdesBlock blockTables_default ((isBits_iff_toInt _).2 hbits)
  have hundo := sdesBlock_sdesBlock blockTables_default hlen
  exact ⟨⟨_, _, exec_sdenc_succeeds hkey hva, rfl, exec_sddec_succeeds hkey (hblock _ _), rfl,
      hundo _ _⟩,
    ⟨_, _, exec_sddec_succeeds hkey hva, rfl, exec_sdenc_succeeds hkey (hblock _ _), rfl,
      hundo _ _⟩⟩

/-- Settles O45: success is a result delivered, and a result is a block. -/
theorem sdesResultIsABlock : Obligations.SdesResultIsABlock := by
  unfold Obligations.SdesResultIsABlock
  rintro i s t (rfl | rfl) h herr
  · rw [exec_sdenc] at h
    exact validBits_toInt (validBits_of_blockResult (eq_ok_of_deliver h herr))
  · rw [exec_sddec] at h
    exact validBits_toInt (validBits_of_blockResult (eq_ok_of_deliver h herr))

/-- Settles O46: the result is a function of the four operands, and the delivery adds nothing. -/
theorem sdesReadsOnlyItsOperands : Obligations.SdesReadsOnlyItsOperands := by
  unfold Obligations.SdesReadsOnlyItsOperands
  rintro i s t s' t' (rfl | rfl) hva hk1 hk2 hkey h h'
  · rw [exec_sdenc, hva, hk1, hk2, hkey] at h
    rw [exec_sdenc] at h'
    exact deliver_agrees h h'
  · rw [exec_sddec, hva, hk1, hk2, hkey] at h
    rw [exec_sddec] at h'
    exact deliver_agrees h h'

end Sys2Proof.Machine
end

section
/-!
Proof of the statement about the one system command, NOP (R160).
-/
namespace Sys2Proof.Machine

/-- NOP commits nothing, so that the end of a successful command is all it does. -/
theorem exec_nop (s : State) : exec .nop s = .next (clearErr s) :=
  succeed_eq id s

/-- Settles O26: the zero word is NOP's encoding, and `ERR` is all that the end of a command writes. -/
theorem nopClearsErr : Obligations.NopClearsErr := by
  unfold Obligations.NopClearsErr
  exact ⟨decode_encode .nop, exec_nop⟩

end Sys2Proof.Machine
end

section
/-!
Proofs of the statements about the causes of the errors (R172 to R175). The causes are one table, over
all commands and errors; each statement reads off the rows of one error.
-/
namespace Sys2Proof.Machine

/-! ### The table of causes, and that commands keep to it -/

/-- `RaiseCause s i e`: in state `s` command `i` has a reason to raise `e`. One row per command
and error of R172 to R175; the block commands share theirs, in R177's order. -/
inductive RaiseCause (s : State) : Instr → ErrorCode → Prop where
  | mod (h : s.opb.toInt < 1) : RaiseCause s .mod .domain
  | modexp (h : s.opb.toInt < 0 ∨ s.opc.toInt < 1) : RaiseCause s .modexp .domain
  | eea (h : s.opa.toInt < 0 ∨ s.opb.toInt < 0) : RaiseCause s .eea .domain
  | modinv (h : s.opb.toInt < 1 ∨ Int.gcd (s.opa.toInt % s.opb.toInt) s.opb.toInt ≠ 1) :
      RaiseCause s .modinv .domain
  | vperm (sel : TableSel)
      (h : ∃ e ∈ selectedTable defaultTables sel s, e < 1 ∨ (s.va.length : Int) < e) :
      RaiseCause s (.vperm sel) .bounds
  | vrotl (h : s.opa.toInt < 0) : RaiseCause s .vrotl .bounds
  | vxor (h : s.va.length ≠ s.vb.length) : RaiseCause s .vxor .bounds
  | sdkey (h : ¬ (s.va.length = 10 ∧ ∀ e ∈ s.va, e.toInt = 0 ∨ e.toInt = 1)) :
      RaiseCause s .sdkey .invalidArgument
  | noKey {i : Instr} (hi : i = .sdenc ∨ i = .sddec) (hkey : s.keyValid = false) :
      RaiseCause s i .noKey
  | block {i : Instr} (hi : i = .sdenc ∨ i = .sddec) (hkey : s.keyValid = true)
      (h : ¬ (s.va.length = 8 ∧ ∀ e ∈ s.va, e.toInt = 0 ∨ e.toInt = 1)) :
      RaiseCause s i .invalidArgument

/-- SDENC and SDDEC differ only in the order of the subkeys (R137). -/
theorem exec_blockCommand {i : Instr} (hi : i = .sdenc ∨ i = .sddec) (s : State) :
    ∃ ka kb, exec i s = deliver (blockResult s.keyValid s.va ka kb) s := by
  rcases hi with rfl | rfl
  · exact ⟨_, _, exec_sdenc s⟩
  · exact ⟨_, _, exec_sddec s⟩

theorem RaiseCause.exec_eq {s : State} {i : Instr} {e : ErrorCode} (h : RaiseCause s i e) :
    exec i s = raise e s := by
  cases h with
  | mod h => exact exec_mod_raises h
  | modexp h => exact exec_modexp_raises h
  | eea h => exact exec_eea_raises h
  | modinv h => exact exec_modinv_raises h
  | vperm sel h =>
    obtain ⟨e, he, hout⟩ := h
    exact exec_vperm_raises fun hall => by have := hall e he; omega
  | vrotl h => exact exec_vrotl_raises h
  | vxor h => exact exec_vxor_raises h
  | sdkey h => exact exec_sdkey_raises (mt (validBits_iff_toInt _ _).1 h)
  | noKey hi hkey =>
    obtain ⟨ka, kb, hexec⟩ := exec_blockCommand hi s
    rw [hexec, blockResult_noKey hkey, deliver]
  | block hi hkey h =>
    obtain ⟨ka, kb, hexec⟩ := exec_blockCommand hi s
    rw [hexec, blockResult_malformed hkey (mt (validBits_iff_toInt _ _).1 h), deliver]

/-- A block command without a cause has a key and a block of bits, and so a result. -/
theorem exec_blockCommand_succeeds {i : Instr} {s : State} (hi : i = .sdenc ∨ i = .sddec)
    (h : ∀ e, ¬ RaiseCause s i e) : ∃ commit, exec i s = succeed commit s := by
  obtain ⟨ka, kb, hexec⟩ := exec_blockCommand hi s
  have hkey : s.keyValid = true := Bool.of_not_eq_false fun hkey => h _ (.noKey hi hkey)
  have hblock := (validBits_iff_toInt s.va 8).2 (not_not.1 fun hn => h _ (.block hi hkey hn))
  exact ⟨_, by rw [hexec, blockResult_valid hkey hblock, deliver]⟩

/-- Without a cause a command succeeds: the table is complete. -/
theorem exec_succeeds_of_no_raiseCause {i : Instr} {s : State} (h : ∀ e, ¬ RaiseCause s i e) :
    ∃ commit, exec i s = succeed commit s := by
  cases i with
  | nop => exact ⟨_, rfl⟩
  | mod =>
    have hn := mt RaiseCause.mod (h _)
    exact ⟨_, exec_mod_succeeds (by omega)⟩
  | modexp =>
    have hn := mt RaiseCause.modexp (h _)
    exact ⟨_, exec_modexp_succeeds (by omega) (by omega)⟩
  | eea =>
    have hn := mt RaiseCause.eea (h _)
    exact ⟨_, exec_eea_succeeds (by omega) (by omega)⟩
  | modinv =>
    obtain ⟨hb, hgcd⟩ := not_or.1 (mt RaiseCause.modinv (h _))
    exact ⟨_, exec_modinv_succeeds (by omega) (not_not.1 hgcd)⟩
  | vperm sel =>
    refine ⟨_, exec_vperm_succeeds fun e he => ?_⟩
    have hn : ¬ (e < 1 ∨ (s.va.length : Int) < e) := fun hout => h _ (.vperm sel ⟨e, he, hout⟩)
    omega
  | vrotl =>
    have hn := mt RaiseCause.vrotl (h _)
    exact ⟨_, exec_vrotl_succeeds (by omega)⟩
  | vxor => exact ⟨_, exec_vxor_succeeds (not_not.1 (mt RaiseCause.vxor (h _)))⟩
  | visbit => exact ⟨_, rfl⟩
  | sdkey =>
    have hkey := not_not.1 (mt RaiseCause.sdkey (h _))
    exact ⟨_, exec_sdkey_succeeds ((validBits_iff_toInt _ _).2 hkey)⟩
  | sdenc => exact exec_blockCommand_succeeds (.inl rfl) h
  | sddec => exact exec_blockCommand_succeeds (.inr rfl) h

/-- `ERR` names an error exactly if the command had a cause for it: the codes of two errors differ, and
success leaves none. -/
theorem err_eq_errorBits_iff {i : Instr} {s t : State} (h : exec i s = .next t) (e : ErrorCode) :
    t.err = errorBits e ↔ RaiseCause s i e := by
  constructor
  · intro herr
    by_cases hcause : ∃ f, RaiseCause s i f
    · obtain ⟨f, hf⟩ := hcause
      rw [hf.exec_eq, raise_eq] at h
      cases h
      rwa [← errorBits_injective herr]
    · obtain ⟨commit, hexec⟩ := exec_succeeds_of_no_raiseCause (not_exists.1 hcause)
      rw [hexec, succeed_eq] at h
      cases h
      exact absurd herr.symm (errorBits_ne_zero e)
  · intro hcause
    rw [hcause.exec_eq, raise_eq] at h
    cases h
    rfl

/-! ### The statements, each the rows of one error -/

/-- Settles O19: the rows of SDKEY and of the block commands with a key. -/
theorem invalidArgumentCauses : Obligations.InvalidArgumentCauses := by
  unfold Obligations.InvalidArgumentCauses
  intro i s t h
  refine (err_eq_errorBits_iff h .invalidArgument).trans ⟨fun hcause => ?_, ?_⟩
  · cases hcause with
    | sdkey hkey => exact .inl ⟨rfl, hkey⟩
    | block hi hkey hblock => exact .inr ⟨hi, hkey, hblock⟩
  · rintro (⟨rfl, hkey⟩ | ⟨hi, hkey, hblock⟩)
    · exact .sdkey hkey
    · exact .block hi hkey hblock

/-- Settles O20: the rows of the four numeric commands; EEA has no row for its second check. -/
theorem domainCauses : Obligations.DomainCauses := by
  unfold Obligations.DomainCauses
  intro i s t h
  refine (err_eq_errorBits_iff h .domain).trans ⟨fun hcause => ?_, ?_⟩
  · cases hcause with
    | mod hdom => exact .inl ⟨rfl, hdom⟩
    | modexp hdom => exact .inr (.inl ⟨rfl, hdom⟩)
    | eea hdom => exact .inr (.inr (.inl ⟨rfl, hdom⟩))
    | modinv hdom => exact .inr (.inr (.inr ⟨rfl, hdom⟩))
  · rintro (⟨rfl, hdom⟩ | ⟨rfl, hdom⟩ | ⟨rfl, hdom⟩ | ⟨rfl, hdom⟩)
    · exact .mod hdom
    · exact .modexp hdom
    · exact .eea hdom
    · exact .modinv hdom

/-- Settles O21: the rows of VPERM, VROTL and VXOR. -/
theorem boundsCauses : Obligations.BoundsCauses := by
  unfold Obligations.BoundsCauses
  intro i s t h
  refine (err_eq_errorBits_iff h .bounds).trans ⟨fun hcause => ?_, ?_⟩
  · cases hcause with
    | vperm sel hout => exact .inl ⟨sel, rfl, hout⟩
    | vrotl hneg => exact .inr (.inl ⟨rfl, hneg⟩)
    | vxor hlen => exact .inr (.inr ⟨rfl, hlen⟩)
  · rintro (⟨sel, rfl, hout⟩ | ⟨rfl, hneg⟩ | ⟨rfl, hlen⟩)
    · exact .vperm sel hout
    · exact .vrotl hneg
    · exact .vxor hlen

/-- Settles O22: the one row of the block commands without a key. -/
theorem noKeyCauses : Obligations.NoKeyCauses := by
  unfold Obligations.NoKeyCauses
  intro i s t h
  refine (err_eq_errorBits_iff h .noKey).trans
    ⟨fun hcause => ?_, fun ⟨hi, hkey⟩ => .noKey hi hkey⟩
  cases hcause with
  | noKey hi hkey => exact ⟨hi, hkey⟩

end Sys2Proof.Machine
end

section
/-!
Proof of the statement about the reset event: the step resets the core, which the host's queue and
answers outlive.
-/
namespace Sys2Proof.Machine

/-- The reset event as a step (R190): the event is taken from the queue and the core is reset. -/
theorem step_of_pending_reset {s : State} {rest : List HostEvent} (h : s.pending = .reset :: rest) :
    step s = .next (resetCore (setPending rest s)) := by
  rw [step_of_pending_cons h, hostEvent]

/-- Settles O2: `resetCore` answers the reset state with the host's side of the state it is given, and
that is the rest of the queue and the answers so far. -/
theorem resetEventResetsTheCore : Obligations.ResetEventResetsTheCore := by
  unfold Obligations.ResetEventResetsTheCore
  intro s rest hp
  rw [step_of_pending_reset hp, resetCore, setPending]

end Sys2Proof.Machine
end
